-- ==== Sys2Proof/Word.lean ====
section
/-! DEFINITION. The word types of the PyCrack SHA-256 core: every datapath value is a 32-bit unsigned word
(00_scope.md R9), and a byte is one eighth of a block or digest lane (20_memory.md R47). Addition of words is
`BitVec` addition, which is addition modulo 2^32 (00_scope.md R10, 40_primitives.md R81). -/

namespace Sys2Proof

/-- A 32-bit unsigned word (00_scope.md R7, R9). -/
abbrev Word := BitVec 32

/-- A byte of the block or of the digest (20_memory.md R45, R47). -/
abbrev Byte := BitVec 8

end Sys2Proof
end

