-- ==== Sys2Proof/Syntax.lean ====
section
/-! DEFINITION. The operations a host can issue: one constructor of `Instr` per row of opcode_table.json
(30_encoding.md R67), the raw access they are decoded from, and the statements of the host's assembly language
(30_encoding.md R71, R72). CORE steps are no instructions: they have no encoding and nothing fetches them
(30_encoding.md R61); they stand in Machine/CoreSteps.lean. -/

namespace Sys2Proof

/-- The direction of an access whose row leaves the WR bit free. A write carries its data, a read carries none
(30_encoding.md R62). -/
inductive Dir where
  | read
  | write (wdata : Word)
  deriving DecidableEq, Repr

/-- One host access, decoded: one constructor per row of the opcode map (30_encoding.md R67). A field is what the
row leaves free in the descriptor; a write also carries its 32-bit data. -/
inductive Instr where
  /-- RD.CTRL, `0 10 00000000` (45_host_access.md R138). -/
  | rdCtrl
  /-- WR.CTRL, `1 10 00000000` (45_host_access.md R137). -/
  | wrCtrl (wdata : Word)
  /-- RD.STATUS, `0 10 00000100` (45_host_access.md R141). -/
  | rdStatus
  /-- WR.STATUS, `1 10 00000100` (45_host_access.md R145). -/
  | wrStatus (wdata : Word)
  /-- RD.PTR, `0 10 00001000` (45_host_access.md R142). -/
  | rdPtr
  /-- WR.PTR, `1 10 00001000` (45_host_access.md R145). -/
  | wrPtr (wdata : Word)
  /-- RD.DIN, `0 10 00001100` (45_host_access.md R139). -/
  | rdDin
  /-- WR.DIN, `1 10 00001100` (45_host_access.md R140). -/
  | wrDin (wdata : Word)
  /-- RD.DOUT, `0 10 00010000` (44_accumulator_serializer.md R131). -/
  | rdDout
  /-- WR.DOUT, `1 10 00010000` (45_host_access.md R145). -/
  | wrDout (wdata : Word)
  /-- RD.MSG, `0 10 01iiii00` (45_host_access.md R143). -/
  | rdMsg (i : Fin 16)
  /-- WR.MSG, `1 10 01iiii00` (45_host_access.md R144). -/
  | wrMsg (i : Fin 16) (wdata : Word)
  /-- RD.DIGEST, `0 10 100jjj00` (44_accumulator_serializer.md R130). -/
  | rdDigest (j : Fin 8)
  /-- WR.DIGEST, `1 10 100jjj00` (45_host_access.md R145). -/
  | wrDigest (j : Fin 8) (wdata : Word)
  /-- ACC.RSVD, `w 10 00010100` (45_host_access.md R146). -/
  | accRsvd14 (dir : Dir)
  /-- ACC.RSVD, `w 10 00011r00` (45_host_access.md R146). -/
  | accRsvd18 (dir : Dir) (r : BitVec 1)
  /-- ACC.RSVD, `w 10 001rrr00` (45_host_access.md R146). -/
  | accRsvd20 (dir : Dir) (r : BitVec 3)
  /-- ACC.RSVD, `w 10 101rrr00` (45_host_access.md R146). -/
  | accRsvdA0 (dir : Dir) (r : BitVec 3)
  /-- ACC.RSVD, `w 10 11rrrr00` (45_host_access.md R146). -/
  | accRsvdC0 (dir : Dir) (r : BitVec 4)
  /-- ACC.MISALIGNED, `w 10 ooooooo1` (45_host_access.md R147). -/
  | accMisalignedOdd (dir : Dir) (o : BitVec 7)
  /-- ACC.MISALIGNED, `w 10 oooooo10` (45_host_access.md R147). -/
  | accMisalignedEven (dir : Dir) (o : BitVec 6)
  /-- ACC.BADSIZE, `w 0s oooooooo` (45_host_access.md R148). -/
  | accBadsizeNarrow (dir : Dir) (sz : BitVec 1) (o : BitVec 8)
  /-- ACC.BADSIZE, `w 11 oooooooo` (45_host_access.md R148). -/
  | accBadsizeX (dir : Dir) (o : BitVec 8)
  deriving DecidableEq, Repr

/-- A raw host access: the 11-bit descriptor and the 32-bit data word (30_encoding.md R62). The widths are the
types', so a value outside them cannot be written (60_exceptions.md R179 item 2, 93_implementation_defined.md U18).
The data of a read has no meaning. -/
structure Access where
  d     : BitVec 11
  wdata : Word
  deriving DecidableEq, Repr

/-- An access given by two numbers whose width nobody has checked yet: what `AccessFrame.check` takes. -/
structure AccessFrame where
  descriptor : Nat
  data       : Nat
  deriving DecidableEq, Repr

/-- The size suffix of a statement: `.B`, `.H`, `.W`, `.X` (30_encoding.md R71). -/
inductive Width where
  | byte
  | half
  | word
  | reserved
  deriving DecidableEq, Repr

/-- The register operand of a statement (30_encoding.md R72): a name, an indexed name or a raw offset. -/
inductive RegOperand where
  | ctrl
  | status
  | ptr
  | din
  | dout
  | msg (i : Nat)
  | digest (j : Nat)
  | raw (off : Nat)
  deriving DecidableEq, Repr

/-- A statement that reaches the block (30_encoding.md R71, R78): `RD[.sz] <reg>` or `WR[.sz] <reg>, <value>`. -/
inductive Stmt where
  | rd (sz : Width) (reg : RegOperand)
  | wr (sz : Width) (reg : RegOperand) (value : Nat)
  deriving DecidableEq, Repr

end Sys2Proof
end

