-- ==== Sys2Proof/WellFormed.lean ====
section
/-! DEFINITION. Which terms are well formed. Every term of `Instr` is: the range of each field is in its type
(60_exceptions.md R179 item 2, 93_implementation_defined.md U18), so `Instr` needs no check of its own. What can be
ill formed is an access given by bare numbers (`AccessFrame`) and a statement of the host's assembly language, whose
operands are written as numbers (30_encoding.md R71, R72). -/

namespace Sys2Proof

/-- The descriptor fits in 11 bits, the data fits in 32 bits, and a read carries no data (30_encoding.md R62). -/
abbrev AccessFrame.WellFormed (f : AccessFrame) : Prop :=
  f.descriptor < 2 ^ 11 ∧ f.data < 2 ^ 32 ∧ (f.descriptor < 2 ^ 10 → f.data = 0)

/-- The operand names a register or an offset of the window (30_encoding.md R72). -/
def RegOperand.wellFormed : RegOperand → Bool
  | .ctrl => true
  | .status => true
  | .ptr => true
  | .din => true
  | .dout => true
  | .msg i => decide (i < 16)
  | .digest j => decide (j < 8)
  | .raw off => decide (off < 256)

/-- The operand is well formed and the value is a 32-bit unsigned literal (30_encoding.md R71). -/
def Stmt.wellFormed : Stmt → Bool
  | .rd _ reg => reg.wellFormed
  | .wr _ reg value => reg.wellFormed && decide (value < 2 ^ 32)

end Sys2Proof
end

