-- ==== Sys2Proof/Decode.lean ====
section
/-! DEFINITION. Decoding a host access and encoding one. `decode` makes the checks of 30_encoding.md R66 in their
order: size, alignment, then the offset. It is total: every one of the 2048 descriptors has a class. `encode` is
written from the patterns of the opcode map (30_encoding.md R67), and `opcodeTable` is that map's match and mask
columns. -/

namespace Sys2Proof

/-! ## The fields of a descriptor (30_encoding.md R62) -/

/-- WR, bit 10: 1 = write, 0 = read. -/
def Access.isWrite (a : Access) : Bool := a.d.getLsbD 10

/-- SIZE, bits 9:8 (30_encoding.md R63). -/
def Access.size (a : Access) : BitVec 2 := a.d.extractLsb' 8 2

/-- OFF, bits 7:0 (30_encoding.md R64). -/
def Access.off (a : Access) : BitVec 8 := a.d.extractLsb' 0 8

/-- The direction, with the data of a write; a read's data is dropped (30_encoding.md R62). -/
def Access.dir (a : Access) : Dir := if a.isWrite then .write a.wdata else .read

/-! ## Decoding (30_encoding.md R66) -/

/-- A word access to a reserved offset: which of the five ACC.RSVD rows it matches (30_encoding.md R67). -/
def decodeReserved (dir : Dir) (off : BitVec 8) : Instr :=
  if off = 0x14#8 then .accRsvd14 dir
  else if off ≤ 0x1C#8 then .accRsvd18 dir (off.extractLsb' 2 1)
  else if off ≤ 0x3C#8 then .accRsvd20 dir (off.extractLsb' 2 3)
  else if off ≤ 0xBC#8 then .accRsvdA0 dir (off.extractLsb' 2 3)
  else .accRsvdC0 dir (off.extractLsb' 2 4)

/-- An aligned word read, by its offset (30_encoding.md R66). -/
def decodeRead (off : BitVec 8) : Instr :=
  if off = 0x00#8 then .rdCtrl
  else if off = 0x04#8 then .rdStatus
  else if off = 0x08#8 then .rdPtr
  else if off = 0x0C#8 then .rdDin
  else if off = 0x10#8 then .rdDout
  else if 0x40#8 ≤ off ∧ off ≤ 0x7C#8 then .rdMsg (off.extractLsb' 2 4).toFin
  else if 0x80#8 ≤ off ∧ off ≤ 0x9C#8 then .rdDigest (off.extractLsb' 2 3).toFin
  else decodeReserved .read off

/-- An aligned word write, by its offset (30_encoding.md R66). -/
def decodeWrite (wdata : Word) (off : BitVec 8) : Instr :=
  if off = 0x00#8 then .wrCtrl wdata
  else if off = 0x04#8 then .wrStatus wdata
  else if off = 0x08#8 then .wrPtr wdata
  else if off = 0x0C#8 then .wrDin wdata
  else if off = 0x10#8 then .wrDout wdata
  else if 0x40#8 ≤ off ∧ off ≤ 0x7C#8 then .wrMsg (off.extractLsb' 2 4).toFin wdata
  else if 0x80#8 ≤ off ∧ off ≤ 0x9C#8 then .wrDigest (off.extractLsb' 2 3).toFin wdata
  else decodeReserved (.write wdata) off

/-- An aligned word access, by its direction. -/
def decodeAligned (dir : Dir) (off : BitVec 8) : Instr :=
  match dir with
  | .read => decodeRead off
  | .write wdata => decodeWrite wdata off

/-- Decode a host access: the first check that applies decides (30_encoding.md R66). -/
def decode (a : Access) : Instr :=
  if a.size ≠ 0b10#2 then
    if a.size = 0b11#2 then .accBadsizeX a.dir a.off
    else .accBadsizeNarrow a.dir (a.size.extractLsb' 0 1) a.off
  else if a.off.extractLsb' 0 2 ≠ 0b00#2 then
    if a.off.getLsbD 0 then .accMisalignedOdd a.dir (a.off.extractLsb' 1 7)
    else .accMisalignedEven a.dir (a.off.extractLsb' 2 6)
  else decodeAligned a.dir a.off

/-! ## Encoding (30_encoding.md R62, R67) -/

/-- The descriptor with the given fields: `d = {WR, SIZE, OFF}` (30_encoding.md R72). -/
def descriptor (wr : Bool) (size : BitVec 2) (off : BitVec 8) : BitVec 11 :=
  BitVec.ofBool wr ++ size ++ off

/-- An access of the given size and offset in the given direction; a read's data word is 0. -/
def accessTo (dir : Dir) (size : BitVec 2) (off : BitVec 8) : Access :=
  match dir with
  | .read => ⟨descriptor false size off, 0⟩
  | .write wdata => ⟨descriptor true size off, wdata⟩

/-- The access that an instruction stands for, from the patterns of the opcode map (30_encoding.md R67). -/
def encode : Instr → Access
  | .rdCtrl => accessTo .read 0b10#2 0b00000000#8
  | .wrCtrl wdata => accessTo (.write wdata) 0b10#2 0b00000000#8
  | .rdStatus => accessTo .read 0b10#2 0b00000100#8
  | .wrStatus wdata => accessTo (.write wdata) 0b10#2 0b00000100#8
  | .rdPtr => accessTo .read 0b10#2 0b00001000#8
  | .wrPtr wdata => accessTo (.write wdata) 0b10#2 0b00001000#8
  | .rdDin => accessTo .read 0b10#2 0b00001100#8
  | .wrDin wdata => accessTo (.write wdata) 0b10#2 0b00001100#8
  | .rdDout => accessTo .read 0b10#2 0b00010000#8
  | .wrDout wdata => accessTo (.write wdata) 0b10#2 0b00010000#8
  | .rdMsg i => accessTo .read 0b10#2 (0b01#2 ++ BitVec.ofFin (w := 4) i ++ 0b00#2)
  | .wrMsg i wdata => accessTo (.write wdata) 0b10#2 (0b01#2 ++ BitVec.ofFin (w := 4) i ++ 0b00#2)
  | .rdDigest j => accessTo .read 0b10#2 (0b100#3 ++ BitVec.ofFin (w := 3) j ++ 0b00#2)
  | .wrDigest j wdata => accessTo (.write wdata) 0b10#2 (0b100#3 ++ BitVec.ofFin (w := 3) j ++ 0b00#2)
  | .accRsvd14 dir => accessTo dir 0b10#2 0b00010100#8
  | .accRsvd18 dir r => accessTo dir 0b10#2 (0b00011#5 ++ r ++ 0b00#2)
  | .accRsvd20 dir r => accessTo dir 0b10#2 (0b001#3 ++ r ++ 0b00#2)
  | .accRsvdA0 dir r => accessTo dir 0b10#2 (0b101#3 ++ r ++ 0b00#2)
  | .accRsvdC0 dir r => accessTo dir 0b10#2 (0b11#2 ++ r ++ 0b00#2)
  | .accMisalignedOdd dir o => accessTo dir 0b10#2 (o ++ 0b1#1)
  | .accMisalignedEven dir o => accessTo dir 0b10#2 (o ++ 0b10#2)
  | .accBadsizeNarrow dir sz o => accessTo dir (0b0#1 ++ sz) o
  | .accBadsizeX dir o => accessTo dir 0b11#2 o

/-! ## The opcode map as data (30_encoding.md R67) -/

/-- A row of the opcode map: it names the descriptors `d` with `d & mask = bits`. -/
structure OpcodeRow where
  mnemonic : String
  bits     : BitVec 11
  mask     : BitVec 11
  deriving DecidableEq, Repr

/-- The row names the descriptor (30_encoding.md R67: `d & mask == match`). -/
def OpcodeRow.covers (row : OpcodeRow) (d : BitVec 11) : Bool := (d &&& row.mask) == row.bits

/-- The row an instruction stands for, with the match and mask columns of 30_encoding.md R67. -/
def Instr.row : Instr → OpcodeRow
  | .rdCtrl => ⟨"RD.CTRL", 0x200#11, 0x7FF#11⟩
  | .wrCtrl _ => ⟨"WR.CTRL", 0x600#11, 0x7FF#11⟩
  | .rdStatus => ⟨"RD.STATUS", 0x204#11, 0x7FF#11⟩
  | .wrStatus _ => ⟨"WR.STATUS", 0x604#11, 0x7FF#11⟩
  | .rdPtr => ⟨"RD.PTR", 0x208#11, 0x7FF#11⟩
  | .wrPtr _ => ⟨"WR.PTR", 0x608#11, 0x7FF#11⟩
  | .rdDin => ⟨"RD.DIN", 0x20C#11, 0x7FF#11⟩
  | .wrDin _ => ⟨"WR.DIN", 0x60C#11, 0x7FF#11⟩
  | .rdDout => ⟨"RD.DOUT", 0x210#11, 0x7FF#11⟩
  | .wrDout _ => ⟨"WR.DOUT", 0x610#11, 0x7FF#11⟩
  | .rdMsg _ => ⟨"RD.MSG", 0x240#11, 0x7C3#11⟩
  | .wrMsg _ _ => ⟨"WR.MSG", 0x640#11, 0x7C3#11⟩
  | .rdDigest _ => ⟨"RD.DIGEST", 0x280#11, 0x7E3#11⟩
  | .wrDigest _ _ => ⟨"WR.DIGEST", 0x680#11, 0x7E3#11⟩
  | .accRsvd14 _ => ⟨"ACC.RSVD", 0x214#11, 0x3FF#11⟩
  | .accRsvd18 _ _ => ⟨"ACC.RSVD", 0x218#11, 0x3FB#11⟩
  | .accRsvd20 _ _ => ⟨"ACC.RSVD", 0x220#11, 0x3E3#11⟩
  | .accRsvdA0 _ _ => ⟨"ACC.RSVD", 0x2A0#11, 0x3E3#11⟩
  | .accRsvdC0 _ _ => ⟨"ACC.RSVD", 0x2C0#11, 0x3C3#11⟩
  | .accMisalignedOdd _ _ => ⟨"ACC.MISALIGNED", 0x201#11, 0x301#11⟩
  | .accMisalignedEven _ _ => ⟨"ACC.MISALIGNED", 0x202#11, 0x303#11⟩
  | .accBadsizeNarrow _ _ _ => ⟨"ACC.BADSIZE", 0x000#11, 0x200#11⟩
  | .accBadsizeX _ _ => ⟨"ACC.BADSIZE", 0x300#11, 0x300#11⟩

/-- One instruction of each row, so that the map is the list of their rows. -/
def rowSamples : List Instr :=
  [.rdCtrl, .wrCtrl 0, .rdStatus, .wrStatus 0, .rdPtr, .wrPtr 0, .rdDin, .wrDin 0, .rdDout, .wrDout 0] ++
  [.rdMsg 0, .wrMsg 0 0, .rdDigest 0, .wrDigest 0 0] ++
  [.accRsvd14 .read, .accRsvd18 .read 0, .accRsvd20 .read 0, .accRsvdA0 .read 0, .accRsvdC0 .read 0] ++
  [.accMisalignedOdd .read 0, .accMisalignedEven .read 0, .accBadsizeNarrow .read 0 0, .accBadsizeX .read 0]

/-- The 23 rows of the opcode map (30_encoding.md R67). -/
def opcodeTable : List OpcodeRow := rowSamples.map Instr.row

/-! ## Accesses given as numbers -/

/-- Why two numbers are no host access (60_exceptions.md R179 item 2, 93_implementation_defined.md U18). -/
inductive FrameReject where
  /-- The descriptor does not fit in 11 bits. -/
  | descriptorTooWide
  /-- The data does not fit in 32 bits. -/
  | dataTooWide
  /-- A read carries no data (30_encoding.md R62). -/
  | readWithData
  deriving DecidableEq, Repr

/-- The access that two numbers stand for, or why they stand for none. -/
def AccessFrame.check (f : AccessFrame) : Except FrameReject Access :=
  if 2 ^ 11 ≤ f.descriptor then .error .descriptorTooWide
  else if 2 ^ 32 ≤ f.data then .error .dataTooWide
  else if f.descriptor < 2 ^ 10 ∧ f.data ≠ 0 then .error .readWithData
  else .ok ⟨BitVec.ofNat 11 f.descriptor, BitVec.ofNat 32 f.data⟩

/-- The bits of an access as one number: the descriptor in a first 16-bit word whose bits 15:11 are 0, then the
32-bit data of a write in bits 47:16 (log 9). -/
def AccessFrame.ofBits (v : Nat) : AccessFrame := ⟨v % 2 ^ 16, v / 2 ^ 16⟩

/-- The access whose bits, numbered as opcode_table.json numbers them, are the low `nbits` bits of `w`; the bits
above them are 0. -/
def accessOfTableWord (nbits w : Nat) : Option Access :=
  match (AccessFrame.ofBits (w % 2 ^ nbits)).check with
  | .ok a => some a
  | .error _ => none

/-- The instruction the decoder reads from the low `nbits` bits of `w`; none where the bits are no access. -/
def decodeTableWord (nbits w : Nat) : Option Instr := (accessOfTableWord nbits w).map decode

end Sys2Proof
end

