-- ==== Sys2Proof/Machine/Primitives.lean ====
section
/-! DEFINITION. The word primitives of 40_primitives.md: rotate, logical shift, and the bitwise functions of the
schedule and of the round. None has an error condition or a flag (40_primitives.md R88). The shift and rotate
amounts are fixed (40_primitives.md R83). -/

namespace Sys2Proof.Machine

/-- `rotr(x, b)`: right rotation by b in 0..31 (40_primitives.md R79). -/
def rotr (x : Word) (b : Fin 32) : Word :=
  if b = 0 then x else (x >>> b.val) ||| (x <<< (32 - b.val))

/-- `shr(x, b)`: logical right shift by b in 0..31, zero-filled (40_primitives.md R80). -/
def shr (x : Word) (b : Fin 32) : Word := x >>> b.val

/-- `sigma0(x)`, the small sigma of W[i-15] (42_scheduler.md R99). -/
def sigma0 (x : Word) : Word := rotr x 7 ^^^ rotr x 18 ^^^ shr x 3

/-- `sigma1(x)`, the small sigma of W[i-2] (42_scheduler.md R100). -/
def sigma1 (x : Word) : Word := rotr x 17 ^^^ rotr x 19 ^^^ shr x 10

/-- `Ch(e, f, g)`: choose (43_compressor.md R109). -/
def ch (e f g : Word) : Word := (e &&& f) ^^^ (~~~e &&& g)

/-- `Maj(a, b, c)`: majority (43_compressor.md R110). -/
def maj (a b c : Word) : Word := (a &&& b) ^^^ (a &&& c) ^^^ (b &&& c)

/-- `Sigma0(a)`, the big sigma of A (43_compressor.md R111). -/
def bigSigma0 (a : Word) : Word := rotr a 2 ^^^ rotr a 13 ^^^ rotr a 22

/-- `Sigma1(e)`, the big sigma of E (43_compressor.md R112). -/
def bigSigma1 (e : Word) : Word := rotr e 6 ^^^ rotr e 11 ^^^ rotr e 25

end Sys2Proof.Machine
end

