-- ==== Sys2Proof/Machine/State.lean ====
section
/-! DEFINITION. The state of the block: every element of 10_state.md R14, plus two fields of the model's own, the
events still to come (`inbox`) and what the host has read (`rdata`). Registers with no storage behind them (CTRL,
DIN, STATUS, PTR, DOUT, DIGEST) are views, computed in Flags.lean and Operands.lean. -/

namespace Sys2Proof.Machine

/-- The sixteen words of a message block (10_state.md R16). -/
abbrev Block := Vector Word 16

/-- The working state A, B, C, D, E, F, G, H (10_state.md R18). -/
structure Working where
  a : Word
  b : Word
  c : Word
  d : Word
  e : Word
  f : Word
  g : Word
  h : Word
  deriving DecidableEq, Repr

/-- The causes of an AccessError, in the order of their codes 1 to 6 (60_exceptions.md R162). -/
inductive AccessError where
  /-- Code 1: an access SIZE other than word. -/
  | badSize
  /-- Code 2: a word access with OFF[1:0] other than 0. -/
  | misaligned
  /-- Code 3: a word access to a reserved offset. -/
  | reservedOffset
  /-- Code 4: a write to STATUS, PTR, DOUT or DIGEST[j]. -/
  | readOnlyWrite
  /-- Code 5: reserved data bits set in a write of CTRL or DIN. -/
  | reservedBits
  /-- Code 6: an access that BUSY = 1 refuses. -/
  | busyAccess
  deriving DecidableEq, Repr

/-- What can happen next to the block (00_scope.md R5, 70_reset_and_hazards.md R181; log 1). -/
inductive Event where
  /-- HOST issues an access. -/
  | access (a : Access)
  /-- CORE has its turn. -/
  | core
  /-- Reset is applied. -/
  | reset
  deriving DecidableEq, Repr

/-- Why the model stops. The spec asks for these outcomes, and none is a behaviour of the block
(60_exceptions.md R179). -/
inductive Fault where
  /-- A CORE step reads A..H while they are absent. The spec says a model "treats a read of an absent value as a
  fault" (10_state.md R40; 60_exceptions.md R179 item 1, 93_implementation_defined.md U2). Raised by the round step and
  the accumulate step. Safe: the model stops, and no state that a run reaches has it. -/
  | absentWorking
  /-- A round step reads a schedule word that is absent: the same words of the spec (10_state.md R40; 60_exceptions.md
  R179 item 1, 93_implementation_defined.md U2). Raised by the round step. Safe: the model stops, and no state that a
  run reaches has it. -/
  | absentSchedule
  /-- The state departs from the invariants of 10_state.md R42 (60_exceptions.md R179 item 3). Raised by the step,
  and by CORE for a round counter above 64. Safe: the model stops, and no state that a run reaches has it. -/
  | invariantBroken
  deriving DecidableEq, Repr

/-- Why the model has no meaning for an access. -/
inductive Refusal where
  /-- The arm of this mnemonic has no meaning yet. Raised by `exec` alone, and by no arm of this model. Safe: the
  model stops. -/
  | notModelled (mnemonic : String)
  deriving DecidableEq, Repr

/-- The state of the block (10_state.md R14), and the model's own `inbox` and `rdata`. -/
structure State where
  /-- Digest state Hs[0..7] (R15). -/
  hs : Digest
  /-- Message block buffer MSG[0..15] (R16). -/
  msg : Block
  /-- Message schedule W[0..63]; `none` is the spec's absent (R17, R40). -/
  w : Vector (Option Word) 64
  /-- Working state A..H; `none` is the spec's absent (R18, R40). -/
  work : Option Working
  /-- Round counter (R19). -/
  t : BitVec 7
  /-- BUSY (R20). -/
  busy : Bool
  /-- VALID (R21). -/
  valid : Bool
  /-- ERR, the sticky error flag (R22). -/
  err : Bool
  /-- ERRCODE (R23). -/
  errcode : BitVec 4
  /-- DINPTR (R24). -/
  dinptr : BitVec 6
  /-- DOUTPTR (R25). -/
  doutptr : BitVec 5
  /-- The model's own: what happens next, the first event first (log 1). -/
  inbox : List Event
  /-- The model's own: what the host's reads returned, the latest first (00_scope.md R13; log 2). -/
  rdata : List Word
  deriving DecidableEq, Repr

/-- Every element at its reset value (10_state.md R41); nothing to happen and nothing read (log 3). -/
def State.reset : State where
  hs := ivRom
  msg := Vector.replicate 16 0
  w := Vector.replicate 64 none
  work := none
  t := 0
  busy := false
  valid := false
  err := false
  errcode := 0
  dinptr := 0
  doutptr := 0
  inbox := []
  rdata := []

end Sys2Proof.Machine
end

