-- ==== Sys2Proof/Machine/Scheduler.lean ====
section
/-! DEFINITION. The message schedule as a function (42_scheduler.md R98 to R101). The round step computes the same
words one at a time (42_scheduler.md R104, R105). -/

namespace Sys2Proof.Machine

/-- `BlockWords(B)`: the sixteen big-endian words of a 64-byte block (42_scheduler.md R98). -/
def blockWords (B : Vector Byte 64) : Block :=
  Vector.ofFn fun i : Fin 16 =>
    B[4 * i.val] ++ B[4 * i.val + 1] ++ B[4 * i.val + 2] ++ B[4 * i.val + 3]

/-- A schedule word from W[i-16], W[i-15], W[i-7] and W[i-2] (42_scheduler.md R101, R104). -/
def extendWord (w16 w15 w7 w2 : Word) : Word := w16 + sigma0 w15 + w7 + sigma1 w2

/-- The first 16 + n words of the schedule: the block, then n words by the recurrence (42_scheduler.md R101). -/
def scheduleList (m : Block) : Nat → List Word
  | 0 => m.toList
  | n + 1 =>
    let S := scheduleList m n
    S ++ [extendWord (S.getD n 0) (S.getD (n + 1) 0) (S.getD (n + 9) 0) (S.getD (n + 14) 0)]

/-- `Schedule(m)`: the 64 schedule words of a block (42_scheduler.md R101, R102). Irreducible, so that no proof
evaluates it by accident; `schedule_getElem` gives its words. -/
@[irreducible] def schedule (m : Block) : Vector Word 64 :=
  let S := scheduleList m 48
  Vector.ofFn fun i : Fin 64 => S.getD i.val 0

end Sys2Proof.Machine
end

