-- ==== Sys2Proof/Machine/Compressor.lean ====
section
/-! DEFINITION. The round, the compression and the chain as functions (43_compressor.md R114, R120,
44_accumulator_serializer.md R128). The CORE steps run one round at a time (Machine/CoreSteps.lean). -/

namespace Sys2Proof.Machine

/-- A..H loaded from Hs[0..7] in order (43_compressor.md R113, 44_accumulator_serializer.md R134). -/
def Working.ofDigest (h : Digest) : Working := ⟨h[0], h[1], h[2], h[3], h[4], h[5], h[6], h[7]⟩

/-- `Round(s, k, w)`: every input is the old state (43_compressor.md R114). -/
def shaRound (s : Working) (k w : Word) : Working :=
  let t1 := s.h + bigSigma1 s.e + ch s.e s.f s.g + w + k
  let newA := t1 + bigSigma0 s.a + maj s.a s.b s.c
  let newE := s.d + t1
  ⟨newA, s.a, s.b, s.c, newE, s.e, s.f, s.g⟩

/-- The working state after the first n rounds, round t using K[t] and Schedule(m)[t] (43_compressor.md R116,
R120). Irreducible, so that no proof evaluates it by accident; `afterRounds_zero` and `afterRounds_succ` give it. -/
@[irreducible] def afterRounds (h : Digest) (m : Block) (n : Nat) : Working :=
  let S := schedule m
  ((List.finRange 64).take n).foldl (fun s t => shaRound s kRom[t] S[t]) (Working.ofDigest h)

/-- `Compress(h, m)`: the working state after 64 rounds (43_compressor.md R120). -/
def compress (h : Digest) (m : Block) : Working := afterRounds h m 64

/-- `h ⊞ s`: word-wise addition modulo 2^32, A into word 0 and so on up to H into word 7
(44_accumulator_serializer.md R127, R128, R134). -/
def addWorking (h : Digest) (s : Working) : Digest :=
  #v[h[0] + s.a, h[1] + s.b, h[2] + s.c, h[3] + s.d, h[4] + s.e, h[5] + s.f, h[6] + s.g, h[7] + s.h]

/-- `Chain(h, blocks)`: the digest state after the blocks, one after another (44_accumulator_serializer.md R128). -/
def chain (h : Digest) : List Block → Digest
  | [] => h
  | m :: rest => chain (addWorking h (compress h m)) rest

end Sys2Proof.Machine
end

