-- ==== Sys2Proof/Machine/Flags.lean ====
section
/-! DEFINITION. Flags and the registers that show them: the error codes (60_exceptions.md R162), STATUS
(10_state.md R32) and PTR (10_state.md R33). No datapath operation has a carry, overflow or condition flag
(10_state.md R29). -/

namespace Sys2Proof.Machine

/-- The code of an error, 1 to 6 (60_exceptions.md R162). -/
def AccessError.code : AccessError → BitVec 4
  | .badSize => 1
  | .misaligned => 2
  | .reservedOffset => 3
  | .readOnlyWrite => 4
  | .reservedBits => 5
  | .busyAccess => 6

/-- STATUS as a read returns it: `{t, 0b0000, ERRCODE, 0b00000, ERR, VALID, BUSY}`, zero-extended
(10_state.md R32). -/
def State.statusWord (s : State) : Word :=
  (s.t ++ 0b0000#4 ++ s.errcode ++ 0b00000#5 ++ BitVec.ofBool s.err ++ BitVec.ofBool s.valid
    ++ BitVec.ofBool s.busy).setWidth 32

/-- PTR as a read returns it: `{DOUTPTR, 0b00, DINPTR}`, zero-extended (10_state.md R33). -/
def State.ptrWord (s : State) : Word := (s.doutptr ++ 0b00#2 ++ s.dinptr).setWidth 32

end Sys2Proof.Machine
end

