-- ==== Sys2Proof/Machine/Operands.lean ====
section
/-! DEFINITION. The operands of an access: the fields of CTRL and DIN data (30_encoding.md R65, R69), and the byte
view of words in which byte 0 is the most significant (20_memory.md R45, R47). -/

namespace Sys2Proof.Machine

/-! ## Fields of the data word -/

/-- CTRL bit 0, INIT (10_state.md R31). -/
def ctrlInit (wdata : Word) : Bool := wdata.getLsbD 0

/-- CTRL bit 1, START (10_state.md R31). -/
def ctrlStart (wdata : Word) : Bool := wdata.getLsbD 1

/-- CTRL bit 2, CLRERR (10_state.md R31). -/
def ctrlClrerr (wdata : Word) : Bool := wdata.getLsbD 2

/-- CTRL bits 31:3 are reserved (30_encoding.md R69). -/
def ctrlReserved (wdata : Word) : BitVec 29 := wdata.extractLsb' 3 29

/-- DIN bits 7:0, the byte (10_state.md R34). -/
def dinByte (wdata : Word) : Byte := wdata.extractLsb' 0 8

/-- DIN bits 31:8 are reserved (30_encoding.md R69). -/
def dinReserved (wdata : Word) : BitVec 24 := wdata.extractLsb' 8 24

/-! ## Bytes of words, most significant first -/

/-- Byte k of a word: bits 31-8k down to 24-8k (20_memory.md R47). -/
def wordByte (x : Word) (k : Fin 4) : Byte := x.extractLsb' (24 - 8 * k.val) 8

/-- The word with its byte k set to v, the other 24 bits unchanged (45_host_access.md R140). -/
def setWordByte (x : Word) (k : Fin 4) (v : Byte) : Word :=
  (x &&& ~~~((0xFF#32) <<< (24 - 8 * k.val))) ||| ((v.setWidth 32) <<< (24 - 8 * k.val))

/-- Which word of the block holds block byte p: p div 4 (20_memory.md R47). -/
def blockWordIndex (p : BitVec 6) : Fin 16 := ⟨p.toNat / 4, by have := p.isLt; omega⟩

/-- Which word of the digest holds digest byte k: k div 4 (20_memory.md R47). -/
def digestWordIndex (k : BitVec 5) : Fin 8 := ⟨k.toNat / 4, by have := k.isLt; omega⟩

/-- Which byte of its word a byte index names: p mod 4, most significant first (20_memory.md R47). -/
def laneIndex {n : Nat} (p : BitVec n) : Fin 4 := ⟨p.toNat % 4, Nat.mod_lt _ (by decide)⟩

/-- Block byte p (20_memory.md R47). -/
def blockByte (m : Block) (p : BitVec 6) : Byte := wordByte m[blockWordIndex p] (laneIndex p)

/-- The block with its byte p set to v (45_host_access.md R140). -/
def setBlockByte (m : Block) (p : BitVec 6) (v : Byte) : Block :=
  m.set (blockWordIndex p).val (setWordByte m[blockWordIndex p] (laneIndex p) v) (blockWordIndex p).isLt

/-- Digest byte k, `Serialize(h)[k]` (44_accumulator_serializer.md R129). -/
def digestByte (h : Digest) (k : BitVec 5) : Byte := wordByte h[digestWordIndex k] (laneIndex k)

/-- `Serialize(h)`: the 32 digest bytes (44_accumulator_serializer.md R129). -/
def serialize (h : Digest) : Vector Byte 32 := Vector.ofFn fun k : Fin 32 => digestByte h (BitVec.ofFin (w := 5) k)

end Sys2Proof.Machine
end

