-- ==== Sys2Proof/Machine/Ops.lean ====
section
/-! DEFINITION. The named operations over the state that the accesses and the CORE steps share: what a read returns,
recording an error (the block's only exception, 60_exceptions.md R165; there is no trap to enter and none to return
from, R170, R171), the commands CLRERR, INIT and START, the two byte ports, and reset. -/

namespace Sys2Proof.Machine

/-- A read returns v to the host (00_scope.md R12, R13). -/
def State.returnRead (s : State) (v : Word) : State := { s with rdata := v :: s.rdata }

/-- `RecordError(code)`: the first error since the last clear is kept (60_exceptions.md R165). -/
def State.recordError (s : State) (e : AccessError) : State :=
  if s.err then s else { s with err := true, errcode := e.code }

/-- An access in error: the error is recorded, a read returns 0, and nothing else happens (00_scope.md R12,
60_exceptions.md R165). -/
def State.refuse (s : State) (dir : Dir) (e : AccessError) : State :=
  match dir with
  | .read => (s.recordError e).returnRead 0
  | .write _ => s.recordError e

/-- CLRERR (44_accumulator_serializer.md R126). -/
def State.clrerr (s : State) : State := { s with err := false, errcode := 0 }

/-- INIT (44_accumulator_serializer.md R125). -/
def State.init (s : State) : State :=
  { s with hs := ivRom, valid := false, t := 0, dinptr := 0, doutptr := 0 }

/-- The schedule with W[0..15] loaded from the block and the rest as it was (43_compressor.md R113). -/
def loadSchedule (m : Block) (w : Vector (Option Word) 64) : Vector (Option Word) 64 :=
  Vector.ofFn fun i : Fin 64 => if h : i.val < 16 then some m[i.val] else w[i.val]

/-- START (43_compressor.md R113). -/
def State.start (s : State) : State :=
  { s with
    work := some (Working.ofDigest s.hs)
    w := loadSchedule s.msg s.w
    t := 0
    busy := true
    valid := false
    dinptr := 0
    doutptr := 0 }

/-- The commands of an accepted CTRL write: CLRERR, then INIT, then START, each seeing the state the one before it
left (45_host_access.md R137). -/
def State.runCommands (s : State) (wdata : Word) : State :=
  let s := if ctrlClrerr wdata then s.clrerr else s
  let s := if ctrlInit wdata then s.init else s
  if ctrlStart wdata then s.start else s

/-- Store v at block byte DINPTR and advance DINPTR modulo 64 (45_host_access.md R140). -/
def State.storeDinByte (s : State) (v : Byte) : State :=
  { s with msg := setBlockByte s.msg s.dinptr v, dinptr := s.dinptr + 1 }

/-- Return digest byte DOUTPTR and advance DOUTPTR modulo 32 (44_accumulator_serializer.md R131). -/
def State.readDoutByte (s : State) : State :=
  { s with rdata := (digestByte s.hs s.doutptr).setWidth 32 :: s.rdata, doutptr := s.doutptr + 1 }

/-- Set MSG[i] (45_host_access.md R144). -/
def State.storeMsg (s : State) (i : Fin 16) (wdata : Word) : State :=
  { s with msg := s.msg.set i.val wdata i.isLt }

/-- Reset: every element at its reset value (70_reset_and_hazards.md R181). What happens next, and what the host has
read before, are not the block's and stay (log 12). -/
def State.applyReset (s : State) : State := { State.reset with inbox := s.inbox, rdata := s.rdata }

end Sys2Proof.Machine
end

