-- ==== Sys2Proof/Machine/CoreSteps.lean ====
section
/-! DEFINITION. The steps of CORE: the round step with its schedule part (43_compressor.md R115, 42_scheduler.md
R104), the accumulate step (44_accumulator_serializer.md R127), and which of them is enabled (43_compressor.md
R117). -/

namespace Sys2Proof.Machine

/-- `Wt` of the round step for round r: W[r] as START loaded it, or for r >= 16 the word SCHED computes; absent where
a word it reads is absent (42_scheduler.md R104, 10_state.md R40). -/
def State.roundWord (s : State) (r : Fin 64) : Option Word :=
  if 16 ≤ r.val then
    match s.w[r.val - 16], s.w[r.val - 15], s.w[r.val - 7], s.w[r.val - 2] with
    | some w16, some w15, some w7, some w2 => some (extendWord w16 w15 w7 w2)
    | _, _, _, _ => none
  else s.w[r.val]

/-- What the round step for round r writes, from the working state st and the word wt it read (43_compressor.md
R115). -/
def State.afterRound (s : State) (r : Fin 64) (st : Working) (wt : Word) : State :=
  { s with
    work := some (shaRound st kRom[r] wt)
    w := if 16 ≤ r.val then s.w.set r.val (some wt) r.isLt else s.w
    t := s.t + 1 }

/-- The round step for round r (43_compressor.md R115). A read of an absent value is a fault: 10_state.md R40 asks for
it, and 93_implementation_defined.md U2 gives it the treatment `fault`, "the model stops with an error state". It is
no want of a reset value, and no run reaches it (60_exceptions.md R179 item 1). -/
def roundStep (r : Fin 64) (s : State) : Host.Outcome State Fault Refusal :=
  match s.work with
  -- 93_implementation_defined.md U2: "Reading `none` is a fault."
  | none => .fault .absentWorking
  | some st =>
    match s.roundWord r with
    -- 93_implementation_defined.md U2: "Reading `none` is a fault."
    | none => .fault .absentSchedule
    | some wt => .next (s.afterRound r st wt)

/-- What the accumulate step writes (44_accumulator_serializer.md R127). -/
def State.afterAccumulate (s : State) (st : Working) : State :=
  { s with hs := addWorking s.hs st, busy := false, valid := true }

/-- The accumulate step (44_accumulator_serializer.md R127). A read of absent A..H is a fault, for the reason given at
`roundStep` (10_state.md R40, 93_implementation_defined.md U2, 60_exceptions.md R179 item 1). -/
def accumulateStep (s : State) : Host.Outcome State Fault Refusal :=
  match s.work with
  -- 93_implementation_defined.md U2: "Reading `none` is a fault."
  | none => .fault .absentWorking
  | some st => .next (s.afterAccumulate st)

/-- CORE's turn: the round step while t <= 63, the accumulate step when t = 64, no step while BUSY = 0
(43_compressor.md R117). A round counter above 64 is stuck (93_implementation_defined.md U4). -/
def coreStep (s : State) : Host.Outcome State Fault Refusal :=
  if s.busy then
    if h : s.t.toNat < 64 then roundStep ⟨s.t.toNat, h⟩ s
    else if s.t = 64 then accumulateStep s
    else .fault .invariantBroken
  else .next s

end Sys2Proof.Machine
end

