-- ==== Sys2Proof/Machine/Illegal.lean ====
section
/-! DEFINITION. The illegal accesses: a reserved offset, a misaligned offset, a size other than word
(45_host_access.md R146 to R148). Every one is decoded and none is silent (30_encoding.md R68): the error is
recorded and a read returns 0, BUSY or not. The free bits of a row do not matter to its effect. -/

namespace Sys2Proof.Machine

/-- ACC.RSVD, offset 0x14 (45_host_access.md R146). -/
def execAccRsvd14 (dir : Dir) (s : State) : Host.Outcome State Fault Refusal :=
  .next (s.refuse dir .reservedOffset)

/-- ACC.RSVD, offsets 0x18 and 0x1C (45_host_access.md R146). -/
def execAccRsvd18 (dir : Dir) (_r : BitVec 1) (s : State) : Host.Outcome State Fault Refusal :=
  .next (s.refuse dir .reservedOffset)

/-- ACC.RSVD, offsets 0x20 to 0x3C (45_host_access.md R146). -/
def execAccRsvd20 (dir : Dir) (_r : BitVec 3) (s : State) : Host.Outcome State Fault Refusal :=
  .next (s.refuse dir .reservedOffset)

/-- ACC.RSVD, offsets 0xA0 to 0xBC (45_host_access.md R146). -/
def execAccRsvdA0 (dir : Dir) (_r : BitVec 3) (s : State) : Host.Outcome State Fault Refusal :=
  .next (s.refuse dir .reservedOffset)

/-- ACC.RSVD, offsets 0xC0 to 0xFC (45_host_access.md R146). -/
def execAccRsvdC0 (dir : Dir) (_r : BitVec 4) (s : State) : Host.Outcome State Fault Refusal :=
  .next (s.refuse dir .reservedOffset)

/-- ACC.MISALIGNED, OFF[0] = 1 (45_host_access.md R147). -/
def execAccMisalignedOdd (dir : Dir) (_o : BitVec 7) (s : State) : Host.Outcome State Fault Refusal :=
  .next (s.refuse dir .misaligned)

/-- ACC.MISALIGNED, OFF[1:0] = 0b10 (45_host_access.md R147). -/
def execAccMisalignedEven (dir : Dir) (_o : BitVec 6) (s : State) : Host.Outcome State Fault Refusal :=
  .next (s.refuse dir .misaligned)

/-- ACC.BADSIZE, a byte or a halfword (45_host_access.md R148). -/
def execAccBadsizeNarrow (dir : Dir) (_sz : BitVec 1) (_o : BitVec 8) (s : State) :
    Host.Outcome State Fault Refusal :=
  .next (s.refuse dir .badSize)

/-- ACC.BADSIZE, the reserved size 0b11 (45_host_access.md R148). -/
def execAccBadsizeX (dir : Dir) (_o : BitVec 8) (s : State) : Host.Outcome State Fault Refusal :=
  .next (s.refuse dir .badSize)

end Sys2Proof.Machine
end

