-- ==== Sys2Proof/Machine/Reads.lean ====
section
/-! DEFINITION. The read accesses (45_host_access.md R138, R139, R141 to R143, 44_accumulator_serializer.md R130,
R131). Reads of CTRL, STATUS, PTR, DIN and MSG are never refused; reads of DIGEST and DOUT are refused while
BUSY = 1 (60_exceptions.md R168). -/

namespace Sys2Proof.Machine

/-- RD.CTRL returns 0 (45_host_access.md R138). -/
def execRdCtrl (s : State) : Host.Outcome State Fault Refusal := .next (s.returnRead 0)

/-- RD.STATUS returns the status word (45_host_access.md R141). -/
def execRdStatus (s : State) : Host.Outcome State Fault Refusal := .next (s.returnRead s.statusWord)

/-- RD.PTR returns the pointer word (45_host_access.md R142). -/
def execRdPtr (s : State) : Host.Outcome State Fault Refusal := .next (s.returnRead s.ptrWord)

/-- RD.DIN returns 0 and does not move DINPTR (45_host_access.md R139). -/
def execRdDin (s : State) : Host.Outcome State Fault Refusal := .next (s.returnRead 0)

/-- RD.DOUT returns the next digest byte and advances DOUTPTR (44_accumulator_serializer.md R131). -/
def execRdDout (s : State) : Host.Outcome State Fault Refusal :=
  if s.busy then .next (s.refuse .read .busyAccess) else .next s.readDoutByte

/-- RD.MSG[i] returns MSG[i], BUSY or not (45_host_access.md R143). -/
def execRdMsg (i : Fin 16) (s : State) : Host.Outcome State Fault Refusal := .next (s.returnRead s.msg[i])

/-- RD.DIGEST[j] returns Hs[j] (44_accumulator_serializer.md R130). -/
def execRdDigest (j : Fin 8) (s : State) : Host.Outcome State Fault Refusal :=
  if s.busy then .next (s.refuse .read .busyAccess) else .next (s.returnRead s.hs[j])

end Sys2Proof.Machine
end

