-- ==== Sys2Proof/Machine/Writes.lean ====
section
/-! DEFINITION. The write accesses (45_host_access.md R137, R140, R144, R145). Each checks reserved data bits
(code 5) before BUSY (code 6) (45_host_access.md R136). -/

namespace Sys2Proof.Machine

/-- WR.CTRL issues commands (45_host_access.md R137). -/
def execWrCtrl (wdata : Word) (s : State) : Host.Outcome State Fault Refusal :=
  if ctrlReserved wdata ≠ 0 then .next (s.refuse (.write wdata) .reservedBits)
  else if s.busy = true ∧ (ctrlInit wdata = true ∨ ctrlStart wdata = true) then
    .next (s.refuse (.write wdata) .busyAccess)
  else .next (s.runCommands wdata)

/-- WR.DIN stores one block byte, big-endian packed (45_host_access.md R140). -/
def execWrDin (wdata : Word) (s : State) : Host.Outcome State Fault Refusal :=
  if dinReserved wdata ≠ 0 then .next (s.refuse (.write wdata) .reservedBits)
  else if s.busy then .next (s.refuse (.write wdata) .busyAccess)
  else .next (s.storeDinByte (dinByte wdata))

/-- WR.MSG[i] stores one block word (45_host_access.md R144). -/
def execWrMsg (i : Fin 16) (wdata : Word) (s : State) : Host.Outcome State Fault Refusal :=
  if s.busy then .next (s.refuse (.write wdata) .busyAccess) else .next (s.storeMsg i wdata)

/-- WR.STATUS: STATUS is read only (45_host_access.md R145). -/
def execWrStatus (wdata : Word) (s : State) : Host.Outcome State Fault Refusal :=
  .next (s.refuse (.write wdata) .readOnlyWrite)

/-- WR.PTR: PTR is read only (45_host_access.md R145). -/
def execWrPtr (wdata : Word) (s : State) : Host.Outcome State Fault Refusal :=
  .next (s.refuse (.write wdata) .readOnlyWrite)

/-- WR.DOUT: DOUT is read only (45_host_access.md R145). -/
def execWrDout (wdata : Word) (s : State) : Host.Outcome State Fault Refusal :=
  .next (s.refuse (.write wdata) .readOnlyWrite)

/-- WR.DIGEST[j]: DIGEST[j] is read only, whatever j is (45_host_access.md R145). -/
def execWrDigest (_j : Fin 8) (wdata : Word) (s : State) : Host.Outcome State Fault Refusal :=
  .next (s.refuse (.write wdata) .readOnlyWrite)

end Sys2Proof.Machine
end

