-- ==== Sys2Proof/Machine/Dispatch.lean ====
section
/-! DEFINITION. One arm per row of the opcode map (30_encoding.md R67, 45_host_access.md R136). -/

namespace Sys2Proof.Machine

/-- The effect of a decoded host access: one atomic HOST step (45_host_access.md R136). -/
def exec (i : Instr) (s : State) : Host.Outcome State Fault Refusal :=
  match i with
  | .rdCtrl => Sys2Proof.Machine.execRdCtrl s
  | .wrCtrl wdata => Sys2Proof.Machine.execWrCtrl wdata s
  | .rdStatus => Sys2Proof.Machine.execRdStatus s
  | .wrStatus wdata => Sys2Proof.Machine.execWrStatus wdata s
  | .rdPtr => Sys2Proof.Machine.execRdPtr s
  | .wrPtr wdata => Sys2Proof.Machine.execWrPtr wdata s
  | .rdDin => Sys2Proof.Machine.execRdDin s
  | .wrDin wdata => Sys2Proof.Machine.execWrDin wdata s
  | .rdDout => Sys2Proof.Machine.execRdDout s
  | .wrDout wdata => Sys2Proof.Machine.execWrDout wdata s
  | .rdMsg k => Sys2Proof.Machine.execRdMsg k s
  | .wrMsg k wdata => Sys2Proof.Machine.execWrMsg k wdata s
  | .rdDigest j => Sys2Proof.Machine.execRdDigest j s
  | .wrDigest j wdata => Sys2Proof.Machine.execWrDigest j wdata s
  | .accRsvd14 dir => Sys2Proof.Machine.execAccRsvd14 dir s
  | .accRsvd18 dir r => Sys2Proof.Machine.execAccRsvd18 dir r s
  | .accRsvd20 dir r => Sys2Proof.Machine.execAccRsvd20 dir r s
  | .accRsvdA0 dir r => Sys2Proof.Machine.execAccRsvdA0 dir r s
  | .accRsvdC0 dir r => Sys2Proof.Machine.execAccRsvdC0 dir r s
  | .accMisalignedOdd dir o => Sys2Proof.Machine.execAccMisalignedOdd dir o s
  | .accMisalignedEven dir o => Sys2Proof.Machine.execAccMisalignedEven dir o s
  | .accBadsizeNarrow dir sz o => Sys2Proof.Machine.execAccBadsizeNarrow dir sz o s
  | .accBadsizeX dir o => Sys2Proof.Machine.execAccBadsizeX dir o s

end Sys2Proof.Machine
end

