-- ==== Sys2Proof/Machine/Invariants.lean ====
section
/-! DEFINITION. The invariants of 10_state.md R42. Items 5, 6 and 8 hold by the types and the constants: DINPTR has
6 bits, DOUTPTR has 5 bits, K and IV are no state. A departure from the others is the stuck fault `invariantBroken`
(60_exceptions.md R179 item 3; log 5). -/

namespace Sys2Proof.Machine

/-- The invariants of 10_state.md R42, in its order: t is at most 64; BUSY implies not VALID; ERR = 0 exactly when
ERRCODE = 0; ERRCODE is at most 6; idle with t other than 0 means t = 64. -/
abbrev State.Invariant (s : State) : Prop :=
  s.t.toNat ≤ 64 ∧
  (s.busy = true → s.valid = false) ∧
  (s.err = false ↔ s.errcode = 0) ∧
  s.errcode.toNat ≤ 6 ∧
  (s.busy = false → s.t ≠ 0 → s.t = 64)

end Sys2Proof.Machine
end

