-- ==== Sys2Proof/Machine/Agents.lean ====
section
/-! DEFINITION. Who moves next: HOST, CORE or reset, as the events in `inbox` say (00_scope.md R5, 20_memory.md R55;
log 1). -/

namespace Sys2Proof.Machine

/-- One event. HOST's access is decoded and run, CORE takes its enabled step if it has one, and reset is applied in
any state (70_reset_and_hazards.md R181). A departure from the invariants is stuck (60_exceptions.md R179 item 3;
log 5). -/
def runEvent (e : Event) (s : State) : Host.Outcome State Fault Refusal :=
  match e with
  | .access a => if s.Invariant then exec (decode a) s else .fault .invariantBroken
  | .core => if s.Invariant then coreStep s else .fault .invariantBroken
  | .reset => .next s.applyReset

/-- The first event of `inbox`. With none left, CORE goes on while it has a step, and then nothing changes
(70_reset_and_hazards.md R192, 60_exceptions.md R177; log 6, log 7). -/
def takeTurn (s : State) : Host.Outcome State Fault Refusal :=
  match s.inbox with
  | [] => runEvent .core s
  | e :: rest => runEvent e { s with inbox := rest }

/-- The state in which HOST issues the access a next (log 1). -/
def State.withAccess (s : State) (a : Access) : State := { s with inbox := .access a :: s.inbox }

/-- The end of a run: HOST has no access left and CORE has no enabled step (70_reset_and_hazards.md R192). -/
def State.RunEnded (s : State) : Prop := (∀ a, Event.access a ∉ s.inbox) ∧ s.busy = false

end Sys2Proof.Machine
end

