-- ==== Sys2Proof/Machine/Step.lean ====
section
/-! DEFINITION. One step of the machine, and how the host's checks place an access. -/

namespace Sys2Proof.Machine

/-- One step of the block and its surroundings: the next event of `inbox`, or CORE's own turn. -/
def step (s : State) : Host.Outcome State Fault Refusal := takeTurn s

/-- The state in which HOST issues next the access whose bits are the low `nbits` bits of `w`, numbered as
opcode_table.json numbers them. Bits that are no access leave the state as it is: such an access cannot be written
(93_implementation_defined.md U18; log 9). -/
def State.withFetchWord (s : State) (nbits w : Nat) : State :=
  match accessOfTableWord nbits w with
  | some a => s.withAccess a
  | none => s

end Sys2Proof.Machine
end

