-- ==== Sys2Proof/Machine/Assembler.lean ====
section
/-! DEFINITION. The host's statements and pseudo-instructions (30_encoding.md R71 to R77): which access a statement
stands for, and which statements a pseudo-instruction expands to. WAIT is in Machine/HostSequence.lean, since how
often it polls is the host's doing (30_encoding.md R73, R78). -/

namespace Sys2Proof.Machine

/-- The SIZE field of a suffix (30_encoding.md R71). -/
def sizeOfWidth : Width → BitVec 2
  | .byte => 0b00#2
  | .half => 0b01#2
  | .word => 0b10#2
  | .reserved => 0b11#2

/-- The offset of an operand (30_encoding.md R72). -/
def operandOffset : RegOperand → BitVec 8
  | .ctrl => 0x00#8
  | .status => 0x04#8
  | .ptr => 0x08#8
  | .din => 0x0C#8
  | .dout => 0x10#8
  | .msg i => BitVec.ofNat 8 (0x40 + 4 * i)
  | .digest j => BitVec.ofNat 8 (0x80 + 4 * j)
  | .raw off => BitVec.ofNat 8 off

/-- The access of a well-formed statement: `d = {WR, SIZE, OFF}` and the data of a write (30_encoding.md R72). -/
def stmtAccess : Stmt → Access
  | .rd sz reg => accessTo .read (sizeOfWidth sz) (operandOffset reg)
  | .wr sz reg value => accessTo (.write (BitVec.ofNat 32 value)) (sizeOfWidth sz) (operandOffset reg)

/-- Assemble one statement; none where it is ill formed. -/
def assemble (st : Stmt) : Option Access := if st.wellFormed then some (stmtAccess st) else none

/-! ## Pseudo-instructions -/

/-- `INIT` (30_encoding.md R74). -/
def pseudoInit : Stmt := .wr .word .ctrl 0x00000001

/-- `START` (30_encoding.md R74). -/
def pseudoStart : Stmt := .wr .word .ctrl 0x00000002

/-- `CLRERR` (30_encoding.md R74). -/
def pseudoClrerr : Stmt := .wr .word .ctrl 0x00000004

/-- `INITSTART` (30_encoding.md R74). -/
def pseudoInitstart : Stmt := .wr .word .ctrl 0x00000003

/-- `RESTART`: CLRERR then INIT (30_encoding.md R74). -/
def pseudoRestart : Stmt := .wr .word .ctrl 0x00000005

/-- One poll of `WAIT`: `RD STATUS` (30_encoding.md R73). -/
def pseudoPoll : Stmt := .rd .word .status

/-- `LOADBLK m0, ..., m15`: the words in increasing order (30_encoding.md R75). -/
def pseudoLoadblk (m : Block) : List Stmt :=
  (List.finRange 16).map fun i => .wr .word (.msg i.val) m[i].toNat

/-- `LOADBYTES b0, ..., b63`: the bytes in increasing order (30_encoding.md R75). -/
def pseudoLoadbytes (B : Vector Byte 64) : List Stmt :=
  (List.finRange 64).map fun p => .wr .word .din B[p].toNat

/-- `READDIGEST`: DIGEST[0] to DIGEST[7] (30_encoding.md R76). -/
def pseudoReaddigest : List Stmt := (List.range 8).map fun j => .rd .word (.digest j)

/-- `READBYTES`: 32 reads of DOUT (30_encoding.md R76). -/
def pseudoReadbytes : List Stmt := List.replicate 32 (.rd .word .dout)

end Sys2Proof.Machine
end

