-- ==== Sys2Proof/Machine/Padding.lean ====
section
/-! DEFINITION. Message padding, which is the host's obligation: the block neither pads nor checks padding
(41_padding_host.md R89, R96), so no meaning uses this file. With it the digest of a message is stated
(44_accumulator_serializer.md R132). -/

namespace Sys2Proof.Machine

/-- Why a message cannot be padded. -/
inductive PadError where
  /-- The bit length `8n` does not fit in 64 bits (41_padding_host.md R94, 90_conflicts.md C1). -/
  | lengthNotRepresentable
  deriving DecidableEq, Repr

/-- The number of zero bytes, `z = (55 - n) mod 64` in 0..63 (41_padding_host.md R91). -/
def padZeros (n : Nat) : Nat := (((55 : Int) - (n : Int)) % 64).toNat

/-- `BE64(v)`: the eight bytes of v, most significant first (41_padding_host.md R90). -/
def be64 (v : BitVec 64) : List Byte := (List.range 8).map fun k => v.extractLsb' (56 - 8 * k) 8

/-- `Pad(M)`: M, 0x80, z zero bytes, and the bit length in eight bytes; an error where the bit length does not fit
(41_padding_host.md R90, R94). -/
def pad (M : List Byte) : Except PadError (List Byte) :=
  if 8 * M.length < 2 ^ 64 then
    .ok (M ++ [0x80#8] ++ List.replicate (padZeros M.length) 0x00#8 ++ be64 (BitVec.ofNat 64 (8 * M.length)))
  else .error .lengthNotRepresentable

/-- The number of blocks of a padded message of n bytes, `floor((n + 8) / 64) + 1` (41_padding_host.md R92). -/
def paddedBlocks (n : Nat) : Nat := (n + 8) / 64 + 1

/-- The 64-byte blocks of a byte sequence, in order (41_padding_host.md R95 step 1). -/
def splitBlocks (P : List Byte) : List (Vector Byte 64) :=
  (List.range (P.length / 64)).map fun b => Vector.ofFn fun k : Fin 64 => P.getD (64 * b + k.val) 0

/-- The blocks of a byte sequence as message words (42_scheduler.md R98). -/
def messageBlocks (P : List Byte) : List Block := (splitBlocks P).map blockWords

/-- `digest(M)`: the 32 bytes of the chain of the padded message's blocks from IV
(44_accumulator_serializer.md R132). -/
def messageDigest (M : List Byte) : Except PadError (Vector Byte 32) :=
  match pad M with
  | .ok P => .ok (serialize (chain ivRom (messageBlocks P)))
  | .error e => .error e

end Sys2Proof.Machine
end

