-- ==== Sys2Proof/Machine/HostSequence.lean ====
section
/-! DEFINITION. Host programs as far as they reach the block (30_encoding.md R71, R73, R77, R78), and the host's
sequence for one digest (41_padding_host.md R95). A program is run against a list of numbers, the CORE turns that fall
before each of its accesses: every interleaving of its accesses with CORE's steps is some such list (20_memory.md
R55; log 16). -/

namespace Sys2Proof.Machine

/-- The accesses of some statements, in program order (20_memory.md R55). -/
def stmtEvents (ss : List Stmt) : List Event := ss.map fun st => .access (stmtAccess st)

/-! ## Programs -/

/-- A statement of a host program: one access, or `WAIT`, whose number of accesses depends on what they read
(30_encoding.md R71, R73). -/
inductive HostStmt where
  | access (st : Stmt)
  | wait
  deriving DecidableEq, Repr

/-- How a program's run against a list of CORE turns went. -/
inductive HostRun where
  /-- The program has issued its last access; `left` is the part of the list it did not need. -/
  | ended (left : List Nat) (s : State)
  /-- The list was used up with `rest` still to do. -/
  | pending (rest : List HostStmt) (s : State)
  /-- The machine stopped with a fault or a refusal. -/
  | stopped
  deriving DecidableEq, Repr

/-- The events of n CORE turns and then one access, before whatever else is to happen. -/
def State.withAccessAfter (s : State) (n : Nat) (st : Stmt) : State :=
  { s with inbox := List.replicate n .core ++ stmtEvents [st] ++ s.inbox }

/-- n CORE turns and then one access, as steps of the machine. -/
def issueAfter (n : Nat) (st : Stmt) (s : State) : Host.Outcome State Fault Refusal :=
  Host.Core.run Sys2Proof.core (n + 1) (s.withAccessAfter n st)

/-- The test of WAIT, `s[0] = 1` of the word the last read returned (30_encoding.md R73). -/
def State.readBusy (s : State) : Bool :=
  match s.rdata with
  | [] => false
  | v :: _ => v.getLsbD 0

/-- Run a host program: before each access CORE has the next number of turns. `WAIT` reads STATUS and starts again
while bit 0 of what it read is 1 (30_encoding.md R73). -/
def runHost : List Nat → List HostStmt → State → HostRun
  | turns, [], s => .ended turns s
  | [], stmt :: prog, s => .pending (stmt :: prog) s
  | n :: turns, .access st :: prog, s =>
    match issueAfter n st s with
    | .next t => runHost turns prog t
    | .fault _ => .stopped
    | .refused _ => .stopped
  | n :: turns, .wait :: prog, s =>
    match issueAfter n pseudoPoll s with
    | .next t => if t.readBusy then runHost turns (.wait :: prog) t else runHost turns prog t
    | .fault _ => .stopped
    | .refused _ => .stopped

/-- The most accesses a statement makes when CORE has a turn before each: a WAIT then polls at most 65 times, since
65 CORE steps finish a block (43_compressor.md R117, 30_encoding.md R73). -/
def HostStmt.mostAccesses : HostStmt → Nat
  | .access _ => 1
  | .wait => 65

/-- The most accesses a program makes when CORE has a turn before each. -/
def mostAccesses (prog : List HostStmt) : Nat := (prog.map HostStmt.mostAccesses).sum

/-! ## The sequence for one digest (41_padding_host.md R95) -/

/-- The two ways of loading a block (41_padding_host.md R95 step 3). -/
inductive LoadForm where
  | words
  | bytes
  deriving DecidableEq, Repr

/-- The two ways of reading the digest (41_padding_host.md R95 step 4). -/
inductive ReadForm where
  | words
  | bytes
  deriving DecidableEq, Repr

/-- A block loaded as 16 big-endian words or as 64 bytes. -/
def pseudoLoad (form : LoadForm) (B : Vector Byte 64) : List Stmt :=
  match form with
  | .words => pseudoLoadblk (blockWords B)
  | .bytes => pseudoLoadbytes B

/-- The digest read as 8 words or as 32 bytes. -/
def pseudoRead (form : ReadForm) : List Stmt :=
  match form with
  | .words => pseudoReaddigest
  | .bytes => pseudoReadbytes

/-- `BLOCK m0, ..., m15`: LOADBLK, START, WAIT (30_encoding.md R77). -/
def pseudoBlock (m : Block) : List HostStmt :=
  (pseudoLoadblk m).map .access ++ [.access pseudoStart, .wait]

/-- Step 3 for one block: load it either way, then START, then WAIT. -/
def blockProgram (form : LoadForm) (B : Vector Byte 64) : List HostStmt :=
  (pseudoLoad form B).map .access ++ [.access pseudoStart, .wait]

/-- The sequence for one digest: INIT, each block by either way of loading, then the digest by either way of reading. -/
def digestProgram (blocks : List (LoadForm × Vector Byte 64)) (read : ReadForm) : List HostStmt :=
  [.access pseudoInit] ++ blocks.flatMap (fun b => blockProgram b.1 b.2) ++ (pseudoRead read).map .access

/-- How many reads a form of reading makes. -/
def ReadForm.count : ReadForm → Nat
  | .words => 8
  | .bytes => 32

/-- The bytes a word read from the block stands for: all four, most significant first, or the low one. -/
def ReadForm.bytesOf (form : ReadForm) (v : Word) : List Byte :=
  match form with
  | .words => (List.finRange 4).map (wordByte v)
  | .bytes => [v.extractLsb' 0 8]

/-- The bytes of the reads that ended a program, in the order they were read. -/
def digestRead (form : ReadForm) (rdata : List Word) : List Byte :=
  (rdata.take form.count).reverse.flatMap form.bytesOf

end Sys2Proof.Machine
end

