-- ==== Sys2Proof/Safety.lean ====
section
/-! DEFINITION. The terms in which claims are stated: what a run may not lack (`Present`), what a block in progress
looks like (`InBlock`), which errors an access's own bits and BUSY give it (`causes`), and which states a run
reaches. -/

namespace Sys2Proof.Machine

/-- While BUSY = 1 the working state is present, and so is every schedule word that START or an earlier round of
this block wrote: W[i] for i < max(t, 16) (10_state.md R40, 42_scheduler.md R105). -/
structure State.Present (s : State) : Prop where
  work : s.busy = true → s.work ≠ none
  words : s.busy = true → ∀ (i : Nat) (h : i < 64), i < max s.t.toNat 16 → s.w[i] ≠ none

/-- What no run loses: the invariants of 10_state.md R42 and the presence of what CORE reads (10_state.md R40). -/
structure State.Safe (s : State) : Prop where
  invariant : s.Invariant
  present : s.Present

/-- The block m is in progress from the digest state h: A..H is the state after t rounds, and the schedule is m's as
far as it is written (42_scheduler.md R105, 43_compressor.md R120). -/
structure State.InBlock (h : Digest) (m : Block) (s : State) : Prop where
  busy : s.busy = true
  invariant : s.Invariant
  digest : s.hs = h
  block : s.msg = m
  work : s.work = some (afterRounds h m s.t.toNat)
  words : ∀ (i : Nat) (hi : i < 64), i < max s.t.toNat 16 → s.w[i] = some (schedule m)[i]

/-- States that a run from reset reaches, whatever happens and in whatever order: any list of events may be given at
the start, and every step that answers a next state may be taken. -/
inductive Reachable : State → Prop where
  | start (events : List Event) : Reachable { State.reset with inbox := events }
  | step {s s' : State} : Reachable s → Machine.step s = .next s' → Reachable s'

/-- The head of `inbox` is an access that decodes to i. -/
def State.Issues (s : State) (i : Instr) : Prop := ∃ a rest, s.inbox = .access a :: rest ∧ decode a = i

/-- It is CORE's turn: a CORE event is first, or nothing is left to happen. -/
def State.CoreTurn (s : State) : Prop := s.inbox = [] ∨ ∃ rest, s.inbox = .core :: rest

/-- Reset is applied next. -/
def State.ResetNext (s : State) : Prop := ∃ rest, s.inbox = .reset :: rest

/-- What a refused write leaves: the error recorded if it is the first, nothing else (60_exceptions.md R165). -/
def refusedWrite (s : State) (code : BitVec 4) : State :=
  { s with err := true, errcode := if s.err then s.errcode else code }

/-- What a refused read leaves: as a refused write, and 0 returned to the host (60_exceptions.md R165, 00_scope.md
R12). -/
def refusedRead (s : State) (code : BitVec 4) : State :=
  { s with err := true, errcode := if s.err then s.errcode else code, rdata := 0 :: s.rdata }

/-- What a refused access leaves, by its direction. -/
def refusedAccess (s : State) (dir : Dir) (code : BitVec 4) : State :=
  match dir with
  | .read => refusedRead s code
  | .write _ => refusedWrite s code

/-! ## The errors of an access, from its bits and BUSY alone (60_exceptions.md R162, R168) -/

/-- OFF lies in 0x14..0x3F or 0xA0..0xFF (60_exceptions.md R162, code 3). -/
def inReservedRange (off : BitVec 8) : Prop := (0x14#8 ≤ off ∧ off ≤ 0x3F#8) ∨ 0xA0#8 ≤ off

/-- OFF is STATUS, PTR, DOUT or a DIGEST word (60_exceptions.md R162, code 4). -/
def isReadOnly (off : BitVec 8) : Prop :=
  off = 0x04#8 ∨ off = 0x08#8 ∨ off = 0x10#8 ∨ (0x80#8 ≤ off ∧ off ≤ 0x9C#8)

/-- Reserved data bits are set in a write of CTRL or DIN (60_exceptions.md R162, code 5). -/
def setsReservedBits (a : Access) : Prop :=
  (a.off = 0x00#8 ∧ ctrlReserved a.wdata ≠ 0) ∨ (a.off = 0x0C#8 ∧ dinReserved a.wdata ≠ 0)

/-- The accesses that BUSY = 1 refuses (60_exceptions.md R168). -/
def touchesBlock (a : Access) : Prop :=
  (a.isWrite = true ∧
    ((a.off = 0x00#8 ∧ (ctrlInit a.wdata = true ∨ ctrlStart a.wdata = true)) ∨
      (0x40#8 ≤ a.off ∧ a.off ≤ 0x7C#8) ∨ a.off = 0x0C#8)) ∨
  (a.isWrite = false ∧ ((0x80#8 ≤ a.off ∧ a.off ≤ 0x9C#8) ∨ a.off = 0x10#8))

/-- The cause e applies to the access a in the state s, other causes left aside (60_exceptions.md R162, R168). -/
def applies (e : AccessError) (a : Access) (s : State) : Prop :=
  match e with
  | .badSize => a.size ≠ 0b10#2
  | .misaligned => a.off.extractLsb' 0 2 ≠ 0b00#2
  | .reservedOffset => inReservedRange a.off
  | .readOnlyWrite => a.isWrite = true ∧ isReadOnly a.off
  | .reservedBits => a.isWrite = true ∧ setsReservedBits a
  | .busyAccess => s.busy = true ∧ touchesBlock a

/-- e applies, and no cause of a lower code does (60_exceptions.md R164). -/
def lowestCause (e : AccessError) (a : Access) (s : State) : Prop :=
  applies e a s ∧ ∀ e', applies e' a s → e.code ≤ e'.code

/-- The codes that the class of an access can raise, and no others (60_exceptions.md R163). -/
def classErrors : Instr → List AccessError
  | .rdCtrl => []
  | .wrCtrl _ => [.reservedBits, .busyAccess]
  | .rdStatus => []
  | .wrStatus _ => [.readOnlyWrite]
  | .rdPtr => []
  | .wrPtr _ => [.readOnlyWrite]
  | .rdDin => []
  | .wrDin _ => [.reservedBits, .busyAccess]
  | .rdDout => [.busyAccess]
  | .wrDout _ => [.readOnlyWrite]
  | .rdMsg _ => []
  | .wrMsg _ _ => [.busyAccess]
  | .rdDigest _ => [.busyAccess]
  | .wrDigest _ _ => [.readOnlyWrite]
  | .accRsvd14 _ => [.reservedOffset]
  | .accRsvd18 _ _ => [.reservedOffset]
  | .accRsvd20 _ _ => [.reservedOffset]
  | .accRsvdA0 _ _ => [.reservedOffset]
  | .accRsvdC0 _ _ => [.reservedOffset]
  | .accMisalignedOdd _ _ => [.misaligned]
  | .accMisalignedEven _ _ => [.misaligned]
  | .accBadsizeNarrow _ _ _ => [.badSize]
  | .accBadsizeX _ _ => [.badSize]

end Sys2Proof.Machine
end

