-- ==== Sys2Proof/Certificates/Slice0/Obligations.lean ====
section
/-! DEFINITION. The statements for the provers, from the numbered rules of spec/. A record update in a conclusion is
also the statement's frame: every field it does not name is unchanged. -/

open Sys2Proof Sys2Proof.Machine

/-! ## The step -/

/-- A step in which HOST is next runs the decoded access, on the state without that event (20_memory.md R55,
45_host_access.md R136). So the step after an access was placed runs exactly it (log 1). -/
def Obligations.StepRunsIssuedAccess : Prop :=
  (∀ (s : State) (a : Access) (rest : List Event), s.inbox = .access a :: rest → s.Invariant →
    step s = exec (decode a) { s with inbox := rest }) ∧
  ∀ (s : State) (nbits w : Nat) (i : Instr), s.Invariant → decodeTableWord nbits w = some i →
    step (s.withFetchWord nbits w) = exec i s

/-- A step in which CORE is next runs CORE's turn; with no event left CORE goes on (00_scope.md R5,
70_reset_and_hazards.md R192; the turn with no event left is the model's, log 7). -/
def Obligations.StepGivesCoreItsTurn : Prop :=
  ∀ s : State, s.Invariant →
    (∀ rest, s.inbox = .core :: rest → step s = coreStep { s with inbox := rest }) ∧
    (s.inbox = [] → step s = coreStep s)

/-- Reset, in any state, sets every element to its reset value (70_reset_and_hazards.md R181). -/
def Obligations.ResetSetsEveryElement : Prop :=
  ∀ (s : State), s.ResetNext → ∃ t, step s = .next t ∧
    (∀ j : Fin 8, t.hs[j] = ivRom[j]) ∧ (∀ i : Fin 16, t.msg[i] = 0x00000000#32) ∧
    (∀ i : Fin 64, t.w[i] = none) ∧ t.work = none ∧
    t.t = 0 ∧ t.busy = false ∧ t.valid = false ∧ t.err = false ∧ t.errcode = 0 ∧ t.dinptr = 0 ∧ t.doutptr = 0

/-- What the host reads right after reset: STATUS is 0, PTR is 0, DIGEST[j] is IV[j]; and the values of R41
(10_state.md R41). -/
def Obligations.ReadsRightAfterReset : Prop :=
  exec .rdStatus State.reset = .next { State.reset with rdata := 0x00000000#32 :: State.reset.rdata } ∧
  exec .rdPtr State.reset = .next { State.reset with rdata := 0x00000000#32 :: State.reset.rdata } ∧
  (∀ j : Fin 8, exec (.rdDigest j) State.reset = .next { State.reset with rdata := ivRom[j] :: State.reset.rdata }) ∧
  (∀ j : Fin 8, State.reset.hs[j] = ivRom[j]) ∧ (∀ i : Fin 16, State.reset.msg[i] = 0x00000000#32) ∧
  (∀ i : Fin 64, State.reset.w[i] = none) ∧ State.reset.work = none ∧
  State.reset.t = 0 ∧ State.reset.busy = false ∧ State.reset.valid = false ∧ State.reset.err = false ∧
  State.reset.errcode = 0 ∧ State.reset.dinptr = 0 ∧ State.reset.doutptr = 0

/-! ## Invariants -/

/-- The reset state, with any events to come, has the invariants, and CORE misses nothing in it (10_state.md R42,
R40). -/
def Obligations.ResetIsSafe : Prop :=
  ∀ events : List Event, State.Safe { State.reset with inbox := events }

/-- Every step keeps the invariants of 10_state.md R42, from every state that has them. -/
def Obligations.EveryStepKeepsInvariants : Prop :=
  ∀ s t : State, s.Invariant → step s = .next t →
    t.t.toNat ≤ 64 ∧ (t.busy = true → t.valid = false) ∧ (t.err = false ↔ t.errcode = 0) ∧
    t.errcode.toNat ≤ 6 ∧ (t.busy = false → t.t ≠ 0 → t.t = 64)

/-- The invariants hold in every state a run reaches, whatever happens in whatever order; DINPTR and DOUTPTR stay in
range (10_state.md R42; item 8 is about constants of this model). -/
def Obligations.ReachableStatesHaveInvariants : Prop :=
  ∀ s : State, Reachable s →
    s.t.toNat ≤ 64 ∧ (s.busy = true → s.valid = false) ∧ (s.err = false ↔ s.errcode = 0) ∧
    s.errcode.toNat ≤ 6 ∧ s.dinptr.toNat ≤ 63 ∧ s.doutptr.toNat ≤ 31 ∧
    (s.busy = false → s.t ≠ 0 → s.t = 64)

/-- No step stops a safe state, and it leaves a safe state: no rule reads an absent word before a rule writes it
(10_state.md R40, 60_exceptions.md R161, R179). -/
def Obligations.SafeStatesGoOn : Prop :=
  ∀ s : State, s.Safe → ∃ t, step s = .next t ∧ t.Safe

/-- Whatever happens after reset, and in whatever order, the block never stops (60_exceptions.md R161, R180). -/
def Obligations.EveryRunGoesOn : Prop :=
  ∀ (events : List Event) (n : Nat), ∃ t,
    Host.Core.run Sys2Proof.core n ({ State.reset with inbox := events } : State) = .next t

/-! ## Encoding -/

/-- Decoding an encoded instruction gives it back, with every operand (30_encoding.md R62, R66, R67). -/
def Obligations.DecodeOfEncode : Prop := ∀ i : Instr, decode (encode i) = i

/-- Encoding a decoded access gives its descriptor back, and the data of a write (30_encoding.md R62, R66, R67). -/
def Obligations.EncodeOfDecode : Prop :=
  ∀ a : Access, (encode (decode a)).d = a.d ∧ (a.isWrite = true → (encode (decode a)).wdata = a.wdata)

/-- Each descriptor matches exactly one row of the opcode map, and it is the row of the instruction the decoder reads
(30_encoding.md R67). -/
def Obligations.EveryDescriptorHasOneRow : Prop :=
  ∀ a : Access, opcodeTable.filter (fun row => row.covers a.d) = [(decode a).row]

/-- Words written out from the patterns of 30_encoding.md R67 decode to what they stand for. -/
def Obligations.SpelledWordsDecode : Prop :=
  decodeTableWord 16 0b01000000100 = some .rdStatus ∧
  decodeTableWord 16 0b11000000000 = some (.wrCtrl 0) ∧
  decodeTableWord 16 0b01001010100 = some (.rdMsg 5) ∧
  decodeTableWord 48 (0x00000018 * 2 ^ 16 + 0b11001111100) = some (.wrMsg 15 0x18) ∧
  decodeTableWord 16 0b01010011100 = some (.rdDigest 7) ∧
  decodeTableWord 16 0b01011111100 = some (.accRsvdC0 .read 0b1111) ∧
  decodeTableWord 16 0b11001000010 = some (.accMisalignedEven (.write 0) 0b010000) ∧
  decodeTableWord 16 0b00100000100 = some (.accBadsizeNarrow .read 1 0x04)

/-! ## Reads -/

/-- CTRL and DIN read as 0, BUSY or not, and nothing changes, DINPTR included (45_host_access.md R138, R139). -/
def Obligations.CtrlAndDinReadZero : Prop :=
  (∀ s : State,
    exec .rdCtrl s = .next { s with rdata := 0x00000000#32 :: s.rdata } ∧
    exec .rdDin s = .next { s with rdata := 0x00000000#32 :: s.rdata }) ∧
  ∀ x : Word, decode ⟨0x200#11, x⟩ = .rdCtrl ∧ decode ⟨0x20C#11, x⟩ = .rdDin

/-- A STATUS read returns BUSY in bit 0, VALID in bit 1, ERR in bit 2, ERRCODE in bits 11:8 and t in bits 22:16, 0
elsewhere, BUSY or not, and nothing changes (45_host_access.md R141, 10_state.md R32). -/
def Obligations.StatusReadLayout : Prop :=
  (∀ s : State, ∃ v : Word, exec .rdStatus s = .next { s with rdata := v :: s.rdata } ∧
    v.getLsbD 0 = s.busy ∧ v.getLsbD 1 = s.valid ∧ v.getLsbD 2 = s.err ∧ v.extractLsb' 3 5 = 0 ∧
    v.extractLsb' 8 4 = s.errcode ∧ v.extractLsb' 12 4 = 0 ∧ v.extractLsb' 16 7 = s.t ∧ v.extractLsb' 23 9 = 0) ∧
  ∀ x : Word, decode ⟨0x204#11, x⟩ = .rdStatus

/-- A PTR read returns DINPTR in bits 5:0 and DOUTPTR in bits 12:8, 0 elsewhere, BUSY or not, and nothing changes
(45_host_access.md R142, 10_state.md R33). -/
def Obligations.PtrReadLayout : Prop :=
  (∀ s : State, ∃ v : Word, exec .rdPtr s = .next { s with rdata := v :: s.rdata } ∧
    v.extractLsb' 0 6 = s.dinptr ∧ v.extractLsb' 6 2 = 0 ∧ v.extractLsb' 8 5 = s.doutptr ∧
    v.extractLsb' 13 19 = 0) ∧
  ∀ x : Word, decode ⟨0x208#11, x⟩ = .rdPtr

/-- A MSG[i] read returns MSG[i], BUSY or not, and nothing changes; after reset that is 0 (45_host_access.md
R143). -/
def Obligations.MsgReadReturnsWord : Prop :=
  ∀ (i : Fin 16) (x : Word),
    (∀ s : State, exec (.rdMsg i) s = .next { s with rdata := s.msg[i] :: s.rdata }) ∧
    State.reset.msg[i] = 0x00000000#32 ∧ decode ⟨BitVec.ofNat 11 (0x240 + 4 * i.val), x⟩ = .rdMsg i

/-- A DIGEST[j] read while BUSY = 0 returns Hs[j], bytes 4j to 4j+3 of the serialised digest, and nothing changes;
while BUSY = 1 it is refused with code 6 (44_accumulator_serializer.md R130). -/
def Obligations.DigestReadReturnsWord : Prop :=
  ∀ (j : Fin 8) (x : Word),
    (∀ s : State, s.busy = false → exec (.rdDigest j) s = .next { s with rdata := s.hs[j] :: s.rdata }) ∧
    (∀ s : State, s.busy = true → exec (.rdDigest j) s = .next (refusedRead s 6)) ∧
    (∀ (s : State) (k : Fin 4),
      (s.hs[j]).extractLsb' (24 - 8 * k.val) 8 = (serialize s.hs)[4 * j.val + k.val]) ∧
    decode ⟨BitVec.ofNat 11 (0x280 + 4 * j.val), x⟩ = .rdDigest j

/-- A DOUT read while BUSY = 0 returns the digest byte at DOUTPTR in bits 7:0, 0 above, and advances DOUTPTR modulo
32; nothing else changes. While BUSY = 1 it is refused with code 6 (44_accumulator_serializer.md R131). -/
def Obligations.DoutReadReturnsNextByte : Prop :=
  (∀ s : State, s.busy = false → ∃ (v : Word) (p : BitVec 5),
    exec .rdDout s = .next { s with rdata := v :: s.rdata, doutptr := p } ∧
    v.extractLsb' 0 8 = (serialize s.hs)[s.doutptr.toNat] ∧ v.extractLsb' 8 24 = 0 ∧
    p.toNat = (s.doutptr.toNat + 1) % 32) ∧
  (∀ s : State, s.busy = true → exec .rdDout s = .next (refusedRead s 6)) ∧
  ∀ x : Word, decode ⟨0x210#11, x⟩ = .rdDout

/-- 32 DOUT reads from DOUTPTR = 0 return the serialised digest in order, DOUTPTR is back at 0, and nothing else
changes (44_accumulator_serializer.md R131, 30_encoding.md R76). -/
def Obligations.ReadbytesSerialisesDigest : Prop :=
  ∀ (s : State) (rest : List Event), s.Invariant → s.busy = false → s.doutptr = 0 →
    s.inbox = stmtEvents pseudoReadbytes ++ rest →
    Host.Core.run Sys2Proof.core 32 s =
      .next { s with
        inbox := rest
        rdata := ((serialize s.hs).toList.map fun y => y.setWidth 32).reverse ++ s.rdata }

/-! ## Writes -/

/-- A MSG[i] write while BUSY = 0 sets MSG[i] to any 32-bit value, and nothing else changes, no other MSG word and not
DINPTR; while BUSY = 1 it is refused with code 6 (45_host_access.md R144). -/
def Obligations.MsgWriteSetsWord : Prop :=
  ∀ (i : Fin 16) (wdata : Word),
    (∀ s : State, s.busy = false → ∃ m : Block,
      exec (.wrMsg i wdata) s = .next { s with msg := m } ∧
      ∀ k : Fin 16, m[k] = if k = i then wdata else s.msg[k]) ∧
    (∀ s : State, s.busy = true → exec (.wrMsg i wdata) s = .next (refusedWrite s 6)) ∧
    decode ⟨BitVec.ofNat 11 (0x640 + 4 * i.val), wdata⟩ = .wrMsg i wdata

/-- A DIN write with bits 31:8 zero while BUSY = 0 sets block byte DINPTR and no other byte of the block, and advances
DINPTR modulo 64; nothing else changes. With a bit of 31:8 set it is refused with code 5, else while BUSY = 1 with
code 6 (45_host_access.md R140). -/
def Obligations.DinWriteSetsByte : Prop :=
  ∀ wdata : Word,
    (∀ s : State, wdata.extractLsb' 8 24 ≠ 0 → exec (.wrDin wdata) s = .next (refusedWrite s 5)) ∧
    (∀ s : State, wdata.extractLsb' 8 24 = 0 → s.busy = true → exec (.wrDin wdata) s = .next (refusedWrite s 6)) ∧
    (∀ s : State, wdata.extractLsb' 8 24 = 0 → s.busy = false → ∃ (m : Block) (p : BitVec 6),
      exec (.wrDin wdata) s = .next { s with msg := m, dinptr := p } ∧
      (∀ q : Fin 16, ∀ k : Fin 4, (m[q]).extractLsb' (24 - 8 * k.val) 8 =
        if 4 * q.val + k.val = s.dinptr.toNat then wdata.extractLsb' 0 8
        else (s.msg[q]).extractLsb' (24 - 8 * k.val) 8) ∧
      p.toNat = (s.dinptr.toNat + 1) % 64) ∧
    decode ⟨0x60C#11, wdata⟩ = .wrDin wdata

/-- LOADBYTES from DINPTR = 0 leaves in MSG the big-endian words of the 64 bytes, with DINPTR back at 0, and nothing
else changes (30_encoding.md R75, 42_scheduler.md R98, 45_host_access.md R140). -/
def Obligations.LoadbytesLoadsBlockWords : Prop :=
  ∀ (s : State) (B : Vector Byte 64) (rest : List Event), s.Invariant → s.busy = false → s.dinptr = 0 →
    s.inbox = stmtEvents (pseudoLoadbytes B) ++ rest →
    Host.Core.run Sys2Proof.core 64 s = .next { s with inbox := rest, msg := blockWords B }

/-- LOADBLK leaves its sixteen words in MSG, and nothing else changes (30_encoding.md R75). -/
def Obligations.LoadblkLoadsBlock : Prop :=
  ∀ (s : State) (m : Block) (rest : List Event), s.Invariant → s.busy = false →
    s.inbox = stmtEvents (pseudoLoadblk m) ++ rest →
    Host.Core.run Sys2Proof.core 16 s = .next { s with inbox := rest, msg := m }

/-- CLRERR clears ERR and ERRCODE, BUSY or not, and nothing else changes (44_accumulator_serializer.md R126). -/
def Obligations.ClrerrClearsError : Prop :=
  ∀ s : State, exec (.wrCtrl 0x00000004#32) s = .next { s with err := false, errcode := 0 }

/-- INIT while BUSY = 0 seeds Hs from IV and clears VALID, t and both pointers; nothing else changes, ERR and ERRCODE
included (44_accumulator_serializer.md R125). -/
def Obligations.InitSeedsDigest : Prop :=
  ∀ s : State, s.busy = false →
    exec (.wrCtrl 0x00000001#32) s =
      .next { s with hs := ivRom, valid := false, t := 0, dinptr := 0, doutptr := 0 }

/-- START while BUSY = 0 loads A..H from Hs and W[0..15] from MSG, sets BUSY, clears t, VALID and both pointers, and
leaves Hs, MSG, ERR, ERRCODE and the other schedule words (43_compressor.md R113; that W[16..63] keep their last
values is the model's choice, log 11). -/
def Obligations.StartBeginsBlock : Prop :=
  ∀ s : State, s.busy = false → ∃ w' : Vector (Option Word) 64,
    exec (.wrCtrl 0x00000002#32) s = .next { s with
      work := some ⟨s.hs[0], s.hs[1], s.hs[2], s.hs[3], s.hs[4], s.hs[5], s.hs[6], s.hs[7]⟩
      w := w', t := 0, busy := true, valid := false, dinptr := 0, doutptr := 0 } ∧
    ∀ i : Fin 64, w'[i] = if h : i.val < 16 then some s.msg[i.val] else s.w[i]

/-- A CTRL write with any of bits 31:3 set is refused with code 5; else with INIT or START set while BUSY = 1 with
code 6; else it runs its commands in the order CLRERR, INIT, START, so START loads the Hs that INIT left. For each of
the eight command words (45_host_access.md R137; the commands are 44_accumulator_serializer.md R126, R125 and
43_compressor.md R113). The clause on `t.w` also says that START leaves W[16..63] at their last values, which is the
model's choice and not a rule of the spec (log 11). -/
def Obligations.CtrlWriteRunsCommands : Prop :=
  ∀ (s : State) (wdata : Word),
    (wdata.extractLsb' 3 29 ≠ 0 → exec (.wrCtrl wdata) s = .next (refusedWrite s 5)) ∧
    (wdata.extractLsb' 3 29 = 0 → s.busy = true → (wdata.getLsbD 0 = true ∨ wdata.getLsbD 1 = true) →
      exec (.wrCtrl wdata) s = .next (refusedWrite s 6)) ∧
    (wdata.extractLsb' 3 29 = 0 → (s.busy = true → wdata.getLsbD 0 = false ∧ wdata.getLsbD 1 = false) → ∃ t,
      exec (.wrCtrl wdata) s = .next t ∧
      t.hs = (if wdata.getLsbD 0 then ivRom else s.hs) ∧
      t.work = (if wdata.getLsbD 1 then
        some ⟨t.hs[0], t.hs[1], t.hs[2], t.hs[3], t.hs[4], t.hs[5], t.hs[6], t.hs[7]⟩ else s.work) ∧
      (∀ i : Fin 64, t.w[i] =
        if wdata.getLsbD 1 = true ∧ i.val < 16 then some (s.msg[i.val % 16]'(by omega)) else s.w[i]) ∧
      t.t = (if wdata.getLsbD 0 || wdata.getLsbD 1 then 0 else s.t) ∧
      t.busy = (wdata.getLsbD 1 || s.busy) ∧
      t.valid = (if wdata.getLsbD 0 || wdata.getLsbD 1 then false else s.valid) ∧
      t.err = (if wdata.getLsbD 2 then false else s.err) ∧
      t.errcode = (if wdata.getLsbD 2 then 0 else s.errcode) ∧
      t.dinptr = (if wdata.getLsbD 0 || wdata.getLsbD 1 then 0 else s.dinptr) ∧
      t.doutptr = (if wdata.getLsbD 0 || wdata.getLsbD 1 then 0 else s.doutptr) ∧
      t.msg = s.msg ∧ t.inbox = s.inbox ∧ t.rdata = s.rdata) ∧
    decode ⟨0x600#11, wdata⟩ = .wrCtrl wdata

/-! ## Errors -/

/-- A CTRL write with any of bits 31:3 set, or a DIN write with any of bits 31:8 set, raises code 5 and has no other
effect, BUSY or not; a MSG write has no reserved bits (30_encoding.md R69). -/
def Obligations.ReservedBitsRefused : Prop :=
  (∀ (s : State) (wdata : Word), wdata.extractLsb' 3 29 ≠ 0 → exec (.wrCtrl wdata) s = .next (refusedWrite s 5)) ∧
  (∀ (s : State) (wdata : Word), wdata.extractLsb' 8 24 ≠ 0 → exec (.wrDin wdata) s = .next (refusedWrite s 5)) ∧
  (∀ (s : State) (i : Fin 16) (wdata : Word), s.busy = false → ∃ t, exec (.wrMsg i wdata) s = .next t ∧
    t.err = s.err ∧ t.errcode = s.errcode)

/-- While BUSY = 1 these are refused with code 6 and have no other effect: CTRL with INIT or START, MSG and DIN
writes, DIGEST and DOUT reads. These are not: STATUS, PTR, CTRL, DIN and MSG reads, and CTRL with only CLRERR or
with 0 (60_exceptions.md R168). -/
def Obligations.BusyRefusesTheseOnly : Prop :=
  ∀ s : State, s.busy = true →
    (∀ wdata : Word, wdata.extractLsb' 3 29 = 0 → (wdata.getLsbD 0 = true ∨ wdata.getLsbD 1 = true) →
      exec (.wrCtrl wdata) s = .next (refusedWrite s 6)) ∧
    (∀ (i : Fin 16) (wdata : Word), exec (.wrMsg i wdata) s = .next (refusedWrite s 6)) ∧
    (∀ wdata : Word, wdata.extractLsb' 8 24 = 0 → exec (.wrDin wdata) s = .next (refusedWrite s 6)) ∧
    (∀ j : Fin 8, exec (.rdDigest j) s = .next (refusedRead s 6)) ∧
    exec .rdDout s = .next (refusedRead s 6) ∧
    (∀ i ∈ [Instr.rdStatus, .rdPtr, .rdCtrl, .rdDin], ∃ v, exec i s = .next { s with rdata := v :: s.rdata }) ∧
    (∀ i : Fin 16, exec (.rdMsg i) s = .next { s with rdata := s.msg[i] :: s.rdata }) ∧
    exec (.wrCtrl 0x00000004#32) s = .next { s with err := false, errcode := 0 } ∧
    exec (.wrCtrl 0x00000000#32) s = .next s

/-- A write to STATUS, PTR, DOUT or DIGEST[j] raises code 4 at any BUSY value and for any data, and has no other
effect (45_host_access.md R145). -/
def Obligations.ReadOnlyWritesRefused : Prop :=
  (∀ (s : State) (wdata : Word),
    exec (.wrStatus wdata) s = .next (refusedWrite s 4) ∧ exec (.wrPtr wdata) s = .next (refusedWrite s 4) ∧
    exec (.wrDout wdata) s = .next (refusedWrite s 4) ∧
    ∀ j : Fin 8, exec (.wrDigest j wdata) s = .next (refusedWrite s 4)) ∧
  ∀ wdata : Word,
    decode ⟨0x604#11, wdata⟩ = .wrStatus wdata ∧ decode ⟨0x608#11, wdata⟩ = .wrPtr wdata ∧
    decode ⟨0x610#11, wdata⟩ = .wrDout wdata ∧
    ∀ j : Fin 8, decode ⟨BitVec.ofNat 11 (0x680 + 4 * j.val), wdata⟩ = .wrDigest j wdata

/-- A word access to a reserved offset, 0x14..0x3C or 0xA0..0xFC, read or write, raises code 3, BUSY or not; a read
returns 0 and nothing else happens (45_host_access.md R146). -/
def Obligations.ReservedOffsetsRefused : Prop :=
  (∀ (s : State) (dir : Dir),
    exec (.accRsvd14 dir) s = .next (refusedAccess s dir 3) ∧
    (∀ r, exec (.accRsvd18 dir r) s = .next (refusedAccess s dir 3)) ∧
    (∀ r, exec (.accRsvd20 dir r) s = .next (refusedAccess s dir 3)) ∧
    (∀ r, exec (.accRsvdA0 dir r) s = .next (refusedAccess s dir 3)) ∧
    ∀ r, exec (.accRsvdC0 dir r) s = .next (refusedAccess s dir 3)) ∧
  ∀ (s : State) (a : Access), a.size = 0b10#2 → a.off.extractLsb' 0 2 = 0b00#2 →
    ((0x14#8 ≤ a.off ∧ a.off ≤ 0x3C#8) ∨ (0xA0#8 ≤ a.off ∧ a.off ≤ 0xFC#8)) →
    exec (decode a) s = .next (refusedAccess s a.dir 3)

/-- A word access with a misaligned offset raises code 2; a read returns 0 and nothing else happens
(45_host_access.md R147). -/
def Obligations.MisalignedRefused : Prop :=
  (∀ (s : State) (dir : Dir),
    (∀ o, exec (.accMisalignedOdd dir o) s = .next (refusedAccess s dir 2)) ∧
    ∀ o, exec (.accMisalignedEven dir o) s = .next (refusedAccess s dir 2)) ∧
  ∀ (s : State) (a : Access), a.size = 0b10#2 → a.off.extractLsb' 0 2 ≠ 0b00#2 →
    exec (decode a) s = .next (refusedAccess s a.dir 2)

/-- A byte, halfword or reserved-size access raises code 1, whatever its offset; a read returns 0 and nothing else
happens (45_host_access.md R148). -/
def Obligations.BadsizeRefused : Prop :=
  (∀ (s : State) (dir : Dir),
    (∀ sz o, exec (.accBadsizeNarrow dir sz o) s = .next (refusedAccess s dir 1)) ∧
    ∀ o, exec (.accBadsizeX dir o) s = .next (refusedAccess s dir 1)) ∧
  ∀ (s : State) (a : Access), a.size ≠ 0b10#2 → exec (decode a) s = .next (refusedAccess s a.dir 1)

/-- When several causes apply to one access the lowest code is reported, whatever the descriptor, the data and the
state; the causes are those of 60_exceptions.md R162 and R168, read off the access's own bits (60_exceptions.md
R164). -/
def Obligations.LowestCodeReported : Prop :=
  ∀ (e : AccessError) (a : Access) (s : State), lowestCause e a s →
    exec (decode a) s = .next (refusedAccess s a.dir e.code)

/-- An access to which no cause applies is accepted: it records no error, and it clears ERR exactly when it is a CTRL
write with CLRERR (60_exceptions.md R162, R166, R168). -/
def Obligations.NoCauseNoError : Prop :=
  ∀ (a : Access) (s : State), (∀ e, ¬ applies e a s) → ∃ t, exec (decode a) s = .next t ∧
    ((∃ x, decode a = .wrCtrl x ∧ x.getLsbD 2 = true ∧ t.err = false ∧ t.errcode = 0) ∨
      ((∀ x, decode a = .wrCtrl x → x.getLsbD 2 = false) ∧ t.err = s.err ∧ t.errcode = s.errcode))

/-- The code an access records is one its class can raise (60_exceptions.md R163). -/
def Obligations.ClassRaisesItsCodesOnly : Prop :=
  ∀ (i : Instr) (s t : State), exec i s = .next t → s.err = false → t.err = true →
    ∃ e ∈ classErrors i, t.errcode = e.code

/-- Only CTRL.CLRERR and reset clear ERR and ERRCODE, and while ERR = 1 nothing else changes them, later errors
included (60_exceptions.md R166, R167). -/
def Obligations.OnlyClrerrAndResetClearError : Prop :=
  ∀ s t : State, s.err = true → step s = .next t →
    (t.err = true ∧ t.errcode = s.errcode) ∨ s.ResetNext ∨ ∃ x, s.Issues (.wrCtrl x) ∧ x.getLsbD 2 = true

/-! ## Who writes what -/

/-- Only INIT, the accumulate step and reset write Hs (10_state.md R15). -/
def Obligations.OnlyTheseWriteDigest : Prop :=
  ∀ s t : State, step s = .next t → t.hs = s.hs ∨ s.ResetNext ∨
    (s.CoreTurn ∧ s.busy = true ∧ s.t = 64) ∨ ∃ x, s.Issues (.wrCtrl x) ∧ x.getLsbD 0 = true ∧ s.busy = false

/-- Only MSG writes, DIN writes and reset write MSG; CORE never does, and none does while BUSY = 1 but reset
(10_state.md R16). -/
def Obligations.OnlyTheseWriteBlock : Prop :=
  ∀ s t : State, step s = .next t → t.msg = s.msg ∨ s.ResetNext ∨
    (s.busy = false ∧ ((∃ i x, s.Issues (.wrMsg i x)) ∨ ∃ x, s.Issues (.wrDin x)))

/-- BUSY rises only by an accepted START and falls only by the accumulate step or reset; VALID rises only by the
accumulate step (10_state.md R20, R21). -/
def Obligations.BusyAndValidChangeOnlyHere : Prop :=
  ∀ s t : State, step s = .next t →
    (s.busy = false → t.busy = true → ∃ x, s.Issues (.wrCtrl x) ∧ x.getLsbD 1 = true) ∧
    (s.busy = true → t.busy = false → s.ResetNext ∨ (s.CoreTurn ∧ s.t = 64)) ∧
    (s.valid = false → t.valid = true → s.CoreTurn ∧ s.busy = true ∧ s.t = 64)

/-- While BUSY = 1 no host access changes anything but ERR, ERRCODE and what the host has read
(43_compressor.md R121, R122, 60_exceptions.md R168). -/
def Obligations.BusyBlockUndisturbed : Prop :=
  ∀ (i : Instr) (s t : State), s.busy = true → exec i s = .next t →
    t = { s with err := t.err, errcode := t.errcode, rdata := t.rdata }

/-! ## CORE -/

/-- While BUSY = 0 CORE has no step, and at the end of a run nothing changes any more (43_compressor.md R117,
60_exceptions.md R177; that the model then stays where it is is the model's, log 6). -/
def Obligations.IdleCoreHasNoStep : Prop :=
  ∀ s : State, s.busy = false →
    coreStep s = .next s ∧ (s.Invariant → s.inbox = [] → step s = .next s)

/-- The round step, enabled while BUSY = 1 and t <= 63. For t <= 15 it runs the round on W[t] as START loaded it; for
t >= 16 it writes the schedule word of the recurrence to W[t] and runs the round on it. t goes up by 1, and nothing
but A..H, t and W[t] changes (43_compressor.md R115, 42_scheduler.md R104). -/
def Obligations.RoundStepRunsOneRound : Prop :=
  (∀ (s : State) (st : Working) (wt : Word) (h : s.t.toNat < 16), s.busy = true → s.work = some st →
    s.w[s.t.toNat] = some wt →
    coreStep s = .next { s with work := some (shaRound st kRom[s.t.toNat] wt), t := s.t + 1 } ∧
    (s.t + 1).toNat = s.t.toNat + 1) ∧
  ∀ (s : State) (st : Working) (a b c d : Word) (h16 : 16 ≤ s.t.toNat) (h : s.t.toNat < 64),
    s.busy = true → s.work = some st →
    s.w[s.t.toNat - 16] = some a → s.w[s.t.toNat - 15] = some b → s.w[s.t.toNat - 7] = some c →
    s.w[s.t.toNat - 2] = some d → ∃ w' : Vector (Option Word) 64,
    coreStep s = .next { s with
      work := some (shaRound st kRom[s.t.toNat] (a + sigma0 b + c + sigma1 d)), w := w', t := s.t + 1 } ∧
    (∀ i : Fin 64, w'[i] = if i.val = s.t.toNat then some (a + sigma0 b + c + sigma1 d) else s.w[i]) ∧
    (s.t + 1).toNat = s.t.toNat + 1

/-- The accumulate step adds A..H into Hs[0..7] word by word modulo 2^32, clears BUSY and sets VALID; t stays 64 and
nothing else changes (44_accumulator_serializer.md R127). -/
def Obligations.AccumulateStepAddsWords : Prop :=
  ∀ (s : State) (st : Working), s.busy = true → s.t = 64 → s.work = some st → ∃ h' : Digest,
    coreStep s = .next { s with hs := h', busy := false, valid := true } ∧
    h'[0].toNat = (s.hs[0].toNat + st.a.toNat) % 2 ^ 32 ∧ h'[1].toNat = (s.hs[1].toNat + st.b.toNat) % 2 ^ 32 ∧
    h'[2].toNat = (s.hs[2].toNat + st.c.toNat) % 2 ^ 32 ∧ h'[3].toNat = (s.hs[3].toNat + st.d.toNat) % 2 ^ 32 ∧
    h'[4].toNat = (s.hs[4].toNat + st.e.toNat) % 2 ^ 32 ∧ h'[5].toNat = (s.hs[5].toNat + st.f.toNat) % 2 ^ 32 ∧
    h'[6].toNat = (s.hs[6].toNat + st.g.toNat) % 2 ^ 32 ∧ h'[7].toNat = (s.hs[7].toNat + st.h.toNat) % 2 ^ 32

/-- The round function: new A and new E are sums modulo 2^32 of the old state's parts, the others are a rotation of
the old values (43_compressor.md R114). -/
def Obligations.RoundIsSumsAndRotation : Prop :=
  ∀ (s : Working) (k w : Word),
    (shaRound s k w).a.toNat =
      (s.h.toNat + (bigSigma1 s.e).toNat + (ch s.e s.f s.g).toNat + w.toNat + k.toNat + (bigSigma0 s.a).toNat
        + (maj s.a s.b s.c).toNat) % 2 ^ 32 ∧
    (shaRound s k w).e.toNat =
      (s.d.toNat + (s.h.toNat + (bigSigma1 s.e).toNat + (ch s.e s.f s.g).toNat + w.toNat + k.toNat)) % 2 ^ 32 ∧
    (shaRound s k w).b = s.a ∧ (shaRound s k w).c = s.b ∧ (shaRound s k w).d = s.c ∧
    (shaRound s k w).f = s.e ∧ (shaRound s k w).g = s.f ∧ (shaRound s k w).h = s.g

/-- The schedule: the block's words first, then the recurrence modulo 2^32 (42_scheduler.md R101). -/
def Obligations.ScheduleRecurrence : Prop :=
  ∀ m : Block,
    (∀ i : Fin 16, (schedule m)[i.val] = m[i]) ∧
    ∀ (i : Nat) (_ : 16 ≤ i) (_ : i < 64), (schedule m)[i].toNat =
      ((schedule m)[i - 16].toNat + (sigma0 (schedule m)[i - 15]).toNat + (schedule m)[i - 7].toNat
        + (sigma1 (schedule m)[i - 2]).toNat) % 2 ^ 32

/-- Rotation, logical shift and the four sigmas, bit by bit: bit k of a sigma is the exclusive or of the bits its
rotations, and for the small sigmas its shift, bring to k (40_primitives.md R79, R80, R83, 42_scheduler.md R99, R100,
43_compressor.md R111, R112). -/
def Obligations.RotateShiftAndSigmaBits : Prop :=
  (∀ (x : Word) (b : Fin 32),
    (∀ k : Fin 32, (rotr x b).getLsbD k = x.getLsbD ((k.val + b.val) % 32)) ∧ rotr x 0 = x ∧
    (∀ k : Fin 32, (shr x b).getLsbD k = if k.val + b.val ≤ 31 then x.getLsbD (k.val + b.val) else false) ∧
    (shr x b).toNat = x.toNat / 2 ^ b.val) ∧
  ∀ (x : Word) (k : Fin 32),
    (sigma0 x).getLsbD k = (x.getLsbD ((k.val + 7) % 32) ^^ x.getLsbD ((k.val + 18) % 32) ^^
      if k.val + 3 ≤ 31 then x.getLsbD (k.val + 3) else false) ∧
    (sigma1 x).getLsbD k = (x.getLsbD ((k.val + 17) % 32) ^^ x.getLsbD ((k.val + 19) % 32) ^^
      if k.val + 10 ≤ 31 then x.getLsbD (k.val + 10) else false) ∧
    (bigSigma0 x).getLsbD k =
      (x.getLsbD ((k.val + 2) % 32) ^^ x.getLsbD ((k.val + 13) % 32) ^^ x.getLsbD ((k.val + 22) % 32)) ∧
    (bigSigma1 x).getLsbD k =
      (x.getLsbD ((k.val + 6) % 32) ^^ x.getLsbD ((k.val + 11) % 32) ^^ x.getLsbD ((k.val + 25) % 32))

/-- Choose and majority, bit by bit (43_compressor.md R109, R110). -/
def Obligations.ChooseAndMajorityBits : Prop :=
  ∀ (x y z : Word) (k : Fin 32),
    (ch x y z).getLsbD k = (if x.getLsbD k then y.getLsbD k else z.getLsbD k) ∧
    (maj x y z).getLsbD k =
      decide (2 ≤ (x.getLsbD k).toNat + (y.getLsbD k).toNat + (z.getLsbD k).toNat)

/-- The ROM words are the first 32 bits of the fractional parts of the cube roots and square roots of the first primes
(40_primitives.md R87). -/
def Obligations.RomWordsAreRootsOfPrimes : Prop :=
  (∀ k : Fin 64, ∃ q : Nat, q ^ 3 ≤ Nat.nth Nat.Prime k * 2 ^ 96 ∧ Nat.nth Nat.Prime k * 2 ^ 96 < (q + 1) ^ 3 ∧
    kRom[k].toNat = q % 2 ^ 32) ∧
  (∀ j : Fin 8, ∃ q : Nat, q ^ 2 ≤ Nat.nth Nat.Prime j * 2 ^ 64 ∧ Nat.nth Nat.Prime j * 2 ^ 64 < (q + 1) ^ 2 ∧
    ivRom[j].toNat = q % 2 ^ 32)

/-- The serialised digest: byte 4j+k is byte k of word j from the most significant end, so four bytes in order are
their word (44_accumulator_serializer.md R129). -/
def Obligations.SerializeIsBigEndian : Prop :=
  ∀ (h : Digest) (j : Fin 8),
    (∀ k : Fin 4, (serialize h)[4 * j.val + k.val] = h[j].extractLsb' (24 - 8 * k.val) 8) ∧
    (serialize h)[4 * j.val] ++ (serialize h)[4 * j.val + 1] ++ (serialize h)[4 * j.val + 2]
      ++ (serialize h)[4 * j.val + 3] = h[j]

/-! ## Blocks and digests -/

/-- After START the block in MSG is in progress from the digest state (43_compressor.md R113, 42_scheduler.md
R105). -/
def Obligations.StartPutsBlockInProgress : Prop :=
  ∀ s t : State, s.Invariant → s.busy = false → exec (.wrCtrl 0x00000002#32) s = .next t →
    State.InBlock s.hs s.msg t

/-- Whatever HOST does while a block is in progress, and however its accesses fall between CORE's steps, the block
stays in progress with A..H the state after t rounds of the compression, until the accumulate step leaves
Hs = h + Compress(h, m) and MSG = m (42_scheduler.md R105, 43_compressor.md R120, R122). -/
def Obligations.BlockInProgressKept : Prop :=
  ∀ (h : Digest) (m : Block) (s t : State), State.InBlock h m s → ¬ s.ResetNext → step s = .next t →
    State.InBlock h m t ∨
      (s.t = 64 ∧ s.CoreTurn ∧ t.busy = false ∧ t.valid = true ∧ t.t = 64 ∧ t.hs = addWorking h (compress h m) ∧
        t.msg = m)

/-- An accepted START and 65 CORE turns leave Hs = h + Compress(h, m) with BUSY = 0, VALID = 1 and t = 64; MSG, ERR,
ERRCODE and what the host has read are unchanged (44_accumulator_serializer.md R128, 43_compressor.md R117;
that START and the turns are events in the list `inbox` is the model's form, log 1). -/
def Obligations.BlockLaw : Prop :=
  ∀ (s : State) (rest : List Event), s.Invariant → s.busy = false →
    s.inbox = stmtEvents [pseudoStart] ++ List.replicate 65 .core ++ rest → ∃ t,
    Host.Core.run Sys2Proof.core 66 s = .next t ∧
    t.hs = addWorking s.hs (compress s.hs s.msg) ∧ t.busy = false ∧ t.valid = true ∧ t.t = 64 ∧
    t.msg = s.msg ∧ t.err = s.err ∧ t.errcode = s.errcode ∧ t.dinptr = 0 ∧ t.doutptr = 0 ∧
    t.inbox = rest ∧ t.rdata = s.rdata

/-- WAIT, run against any CORE turns before its polls. When it ends, BUSY = 0, its last STATUS read has bit 0 = 0 and
every earlier one has bit 0 = 1; a WAIT begun with BUSY = 1 ends when CORE has 65 turns, however many polls they fall
between, and leaves VALID = 1; it never stops the block (30_encoding.md R73, 20_memory.md R56; polls and turns as
data are the model's form, log 16). -/
def Obligations.WaitEnds : Prop :=
  ∀ (s : State) (turns : List Nat), s.Safe →
    runHost turns [.wait] s ≠ .stopped ∧
    (∀ (left : List Nat) (t : State), runHost turns [.wait] s = .ended left t →
      t.busy = false ∧ t.inbox = s.inbox ∧ ∃ (v : Word) (earlier : List Word),
        t.rdata = v :: earlier ++ s.rdata ∧ v.getLsbD 0 = false ∧ ∀ u ∈ earlier, u.getLsbD 0 = true) ∧
    (s.busy = true → 65 ≤ turns.sum → ∃ (left : List Nat) (t : State),
      runHost turns [.wait] s = .ended left t ∧ t.valid = true)

/-- BLOCK compresses one block into the digest state. From any idle state, when LOADBLK, START and WAIT have ended,
Hs = h + Compress(h, m) with h as it was, whatever CORE turns fell before each access; no error is recorded. When
CORE has a turn before each access it ends (30_encoding.md R77; log 16). -/
def Obligations.BlockPseudoCompresses : Prop :=
  ∀ (s : State) (m : Block) (turns : List Nat), s.Invariant → s.busy = false →
    (∀ (left : List Nat) (t : State), runHost turns (pseudoBlock m) s = .ended left t →
      t.hs = addWorking s.hs (compress s.hs m) ∧ t.msg = m ∧ t.busy = false ∧ t.valid = true ∧ t.t = 64 ∧
      t.err = s.err ∧ t.errcode = s.errcode ∧ t.dinptr = 0 ∧ t.doutptr = 0 ∧ t.inbox = s.inbox) ∧
    ((∀ n ∈ turns, 1 ≤ n) → mostAccesses (pseudoBlock m) ≤ turns.length → ∃ (left : List Nat) (t : State),
      runHost turns (pseudoBlock m) s = .ended left t)

/-- The digest of a message. From any idle state, run the host's sequence for the padded message: INIT, each block
loaded by LOADBLK or by LOADBYTES as the host likes, START, WAIT, and the digest read by READDIGEST or by READBYTES.
Whatever CORE turns fall before each access, when the sequence has ended the 32 bytes read are
Serialize(Chain(IV, the blocks of Pad(M))), and no error is recorded. When CORE has a turn before each access it ends
(44_accumulator_serializer.md R132, 41_padding_host.md R95; the list of events is log 1, Pad beside the machine log 15,
a program run against CORE turns log 16). -/
def Obligations.DigestOfMessage : Prop :=
  ∀ (s : State) (M P : List Byte) (blocks : List (LoadForm × Vector Byte 64)) (read : ReadForm) (turns : List Nat),
    s.Invariant → s.busy = false → pad M = .ok P → blocks.map Prod.snd = splitBlocks P →
    (∀ (left : List Nat) (t : State), runHost turns (digestProgram blocks read) s = .ended left t →
      ∃ y : Vector Byte 32, digestRead read t.rdata = y.toList ∧ messageDigest M = .ok y ∧
        y = serialize (chain ivRom (messageBlocks P)) ∧ t.err = s.err ∧ t.errcode = s.errcode ∧ t.inbox = s.inbox) ∧
    ((∀ n ∈ turns, 1 ≤ n) → mostAccesses (digestProgram blocks read) ≤ turns.length →
      ∃ (left : List Nat) (t : State), runHost turns (digestProgram blocks read) s = .ended left t)

/-! ## Padding -/

/-- The padded length is 64 times the number of blocks, and at least n + 9 (41_padding_host.md R92). The blocks of a
byte sequence are its bytes in order, 64 to a block, and word i of a block is its bytes 4i to 4i+3, most significant
first (41_padding_host.md R95 step 1, 42_scheduler.md R98). -/
def Obligations.PaddedMessageIsWholeBlocks : Prop :=
  (∀ M P : List Byte, pad M = .ok P →
    P.length = M.length + 9 + padZeros M.length ∧ P.length = 64 * ((M.length + 8) / 64 + 1) ∧
    P.length % 64 = 0 ∧ M.length + 9 ≤ P.length ∧ 64 ≤ P.length) ∧
  ∀ P : List Byte,
    (splitBlocks P).length = P.length / 64 ∧ (messageBlocks P).length = P.length / 64 ∧
    (∀ (b : Nat) (hb : b < P.length / 64), ∃ B : Vector Byte 64, (splitBlocks P)[b]? = some B ∧
      ∀ k : Fin 64, P[64 * b + k.val]? = some B[k]) ∧
    ∀ (b : Nat) (hb : b < P.length / 64), ∃ m : Block, (messageBlocks P)[b]? = some m ∧
      ∀ (i : Fin 16) (k : Fin 4), P[64 * b + 4 * i.val + k.val]? = some ((m[i]).extractLsb' (24 - 8 * k.val) 8)

/-- The number of zero bytes is the least that fills the last block (41_padding_host.md R91). -/
def Obligations.PadZerosIsLeast : Prop :=
  ∀ n : Nat, padZeros n ≤ 63 ∧ (n + 1 + padZeros n + 8) % 64 = 0 ∧
    ∀ z : Nat, (n + 1 + z + 8) % 64 = 0 → padZeros n ≤ z

/-- A message of 2^61 bytes or more is an error. A shorter one is padded, byte for byte: first the message, then 0x80,
then the zero bytes, then eight bytes that are its bit length, most significant first (41_padding_host.md R90, R94;
Pad beside the machine is log 15). -/
def Obligations.PadWritesEveryByte : Prop :=
  ∀ M : List Byte,
    (2 ^ 61 ≤ M.length → pad M = .error .lengthNotRepresentable) ∧
    (M.length < 2 ^ 61 → ∃ P, pad M = .ok P ∧
      P.length = M.length + 1 + padZeros M.length + 8 ∧
      P.take M.length = M ∧ P[M.length]? = some 0x80#8 ∧
      (∀ i : Nat, M.length < i → i ≤ M.length + padZeros M.length → P[i]? = some 0x00#8) ∧
      (P.drop (M.length + 1 + padZeros M.length)).foldl (fun acc b => acc * 256 + b.toNat) 0 = 8 * M.length)
end

