-- ==== Sys2Proof/Config.lean ====
section
/-! DEFINITION. What the spec leaves to the platform. Only one point is open: the base address SHA_BASE
(92_eei_decisions.md D5, 93_implementation_defined.md U13). Every other parameter is fixed to one value
(00_scope.md R7) and stands in the definitions that use it. -/

namespace Sys2Proof

/-- SHA_BASE, the host address at which the platform places the register window (20_memory.md R44). It has no
body: no proof can rest on a value of it (log 14). -/
opaque Config.shaBase : Nat

end Sys2Proof
end

