-- ==== Sys2Proof/Laws/Decode.lean ====
section
/-! SUPPORT. Numbers that are an access are the well-formed ones, and the opcode map has 23 rows (30_encoding.md
R67). -/

namespace Sys2Proof

/-- Two numbers are an access exactly when they are well formed, and then it is the access they name. -/
theorem AccessFrame.check_eq_ok_iff (f : AccessFrame) (a : Access) :
    f.check = .ok a ↔ f.WellFormed ∧ a = ⟨BitVec.ofNat 11 f.descriptor, BitVec.ofNat 32 f.data⟩ := by
  unfold AccessFrame.check AccessFrame.WellFormed
  split
  · constructor
    · intro h; cases h
    · rintro ⟨⟨h, _⟩, _⟩; omega
  · split
    · constructor
      · intro h; cases h
      · rintro ⟨⟨_, h, _⟩, _⟩; omega
    · split
      next h3 =>
        constructor
        · intro h; cases h
        · rintro ⟨⟨_, _, h⟩, _⟩; exact absurd (h h3.1) h3.2
      next h1 h2 h3 =>
        constructor
        · intro h; cases h
          exact ⟨⟨by omega, by omega, fun hd => by by_contra hne; exact h3 ⟨hd, hne⟩⟩, rfl⟩
        · rintro ⟨_, rfl⟩; rfl

/-! ## The fields of a written descriptor (30_encoding.md R62) -/

theorem descriptor_off (wr : Bool) (size : BitVec 2) (off : BitVec 8) :
    (descriptor wr size off).extractLsb' 0 8 = off := by
  unfold descriptor
  exact BitVec.extractLsb'_append_eq_right

theorem descriptor_size (wr : Bool) (size : BitVec 2) (off : BitVec 8) :
    (descriptor wr size off).extractLsb' 8 2 = size := by
  unfold descriptor
  ext i hi
  rw [BitVec.getElem_extractLsb', BitVec.getLsbD_append, BitVec.getLsbD_append]
  simp [hi]

theorem descriptor_wr (wr : Bool) (size : BitVec 2) (off : BitVec 8) : (descriptor wr size off).getLsbD 10 = wr := by
  unfold descriptor
  rw [BitVec.getLsbD_append, BitVec.getLsbD_append]
  simp

theorem accessTo_off (dir : Dir) (size : BitVec 2) (off : BitVec 8) : (accessTo dir size off).off = off := by
  cases dir <;> exact descriptor_off _ _ _

theorem accessTo_size (dir : Dir) (size : BitVec 2) (off : BitVec 8) : (accessTo dir size off).size = size := by
  cases dir <;> exact descriptor_size _ _ _

theorem accessTo_dir (dir : Dir) (size : BitVec 2) (off : BitVec 8) : (accessTo dir size off).dir = dir := by
  cases dir <;> simp only [accessTo, Access.dir, Access.isWrite, descriptor_wr] <;> rfl

/-- The checks of 30_encoding.md R66 on a written access: they see its size and its offset. -/
theorem decode_accessTo (dir : Dir) (size : BitVec 2) (off : BitVec 8) :
    decode (accessTo dir size off) =
      if size ≠ 0b10#2 then
        if size = 0b11#2 then .accBadsizeX dir off
        else .accBadsizeNarrow dir (size.extractLsb' 0 1) off
      else if off.extractLsb' 0 2 ≠ 0b00#2 then
        if off.getLsbD 0 then .accMisalignedOdd dir (off.extractLsb' 1 7)
        else .accMisalignedEven dir (off.extractLsb' 2 6)
      else decodeAligned dir off := by
  simp only [decode, accessTo_off, accessTo_size, accessTo_dir]

theorem opcodeTable_length : opcodeTable.length = 23 := by decide

/-- The table word of a placed access is the one the decoder reads. -/
theorem decodeTableWord_eq_some_iff (nbits w : Nat) (i : Instr) :
    decodeTableWord nbits w = some i ↔ ∃ a, accessOfTableWord nbits w = some a ∧ decode a = i := by
  simp [decodeTableWord]

end Sys2Proof
end

