-- ==== Sys2Proof/Laws/Errors.lean ====
section
/-! SUPPORT. What a refused access leaves, in the terms the statements use (60_exceptions.md R165). -/

namespace Sys2Proof.Machine

theorem State.recordError_eq (s : State) (e : AccessError) : s.recordError e = refusedWrite s e.code := by
  unfold State.recordError refusedWrite
  cases h : s.err
  · simp
  · simp only [if_true]
    rw [← h]

/-- A refused access leaves the error recorded if it is the first, and a read returns 0 (60_exceptions.md R165). -/
theorem State.refuse_eq (s : State) (dir : Dir) (e : AccessError) :
    s.refuse dir e = refusedAccess s dir e.code := by
  cases dir with
  | read =>
    simp only [State.refuse, State.returnRead, State.recordError_eq]
    rfl
  | write wdata => exact State.recordError_eq s e

end Sys2Proof.Machine
end

