-- ==== Sys2Proof/Laws/State.lean ====
section
/-! SUPPORT. What each named operation leaves in each field of the state: one lemma per field and operation, true by
unfolding, so that no later proof unfolds a record update. -/

namespace Sys2Proof.Machine

variable (s : State)

/-! ## `returnRead` -/

@[simp] theorem State.returnRead_hs (v : Word) : (s.returnRead v).hs = s.hs := rfl
@[simp] theorem State.returnRead_msg (v : Word) : (s.returnRead v).msg = s.msg := rfl
@[simp] theorem State.returnRead_w (v : Word) : (s.returnRead v).w = s.w := rfl
@[simp] theorem State.returnRead_work (v : Word) : (s.returnRead v).work = s.work := rfl
@[simp] theorem State.returnRead_t (v : Word) : (s.returnRead v).t = s.t := rfl
@[simp] theorem State.returnRead_busy (v : Word) : (s.returnRead v).busy = s.busy := rfl
@[simp] theorem State.returnRead_valid (v : Word) : (s.returnRead v).valid = s.valid := rfl
@[simp] theorem State.returnRead_err (v : Word) : (s.returnRead v).err = s.err := rfl
@[simp] theorem State.returnRead_errcode (v : Word) : (s.returnRead v).errcode = s.errcode := rfl
@[simp] theorem State.returnRead_dinptr (v : Word) : (s.returnRead v).dinptr = s.dinptr := rfl
@[simp] theorem State.returnRead_doutptr (v : Word) : (s.returnRead v).doutptr = s.doutptr := rfl
@[simp] theorem State.returnRead_inbox (v : Word) : (s.returnRead v).inbox = s.inbox := rfl
@[simp] theorem State.returnRead_rdata (v : Word) : (s.returnRead v).rdata = v :: s.rdata := rfl

/-! ## `clrerr` -/

@[simp] theorem State.clrerr_hs : (s.clrerr).hs = s.hs := rfl
@[simp] theorem State.clrerr_msg : (s.clrerr).msg = s.msg := rfl
@[simp] theorem State.clrerr_w : (s.clrerr).w = s.w := rfl
@[simp] theorem State.clrerr_work : (s.clrerr).work = s.work := rfl
@[simp] theorem State.clrerr_t : (s.clrerr).t = s.t := rfl
@[simp] theorem State.clrerr_busy : (s.clrerr).busy = s.busy := rfl
@[simp] theorem State.clrerr_valid : (s.clrerr).valid = s.valid := rfl
@[simp] theorem State.clrerr_err : (s.clrerr).err = false := rfl
@[simp] theorem State.clrerr_errcode : (s.clrerr).errcode = 0 := rfl
@[simp] theorem State.clrerr_dinptr : (s.clrerr).dinptr = s.dinptr := rfl
@[simp] theorem State.clrerr_doutptr : (s.clrerr).doutptr = s.doutptr := rfl
@[simp] theorem State.clrerr_inbox : (s.clrerr).inbox = s.inbox := rfl
@[simp] theorem State.clrerr_rdata : (s.clrerr).rdata = s.rdata := rfl

/-! ## `init` -/

@[simp] theorem State.init_hs : (s.init).hs = ivRom := rfl
@[simp] theorem State.init_msg : (s.init).msg = s.msg := rfl
@[simp] theorem State.init_w : (s.init).w = s.w := rfl
@[simp] theorem State.init_work : (s.init).work = s.work := rfl
@[simp] theorem State.init_t : (s.init).t = 0 := rfl
@[simp] theorem State.init_busy : (s.init).busy = s.busy := rfl
@[simp] theorem State.init_valid : (s.init).valid = false := rfl
@[simp] theorem State.init_err : (s.init).err = s.err := rfl
@[simp] theorem State.init_errcode : (s.init).errcode = s.errcode := rfl
@[simp] theorem State.init_dinptr : (s.init).dinptr = 0 := rfl
@[simp] theorem State.init_doutptr : (s.init).doutptr = 0 := rfl
@[simp] theorem State.init_inbox : (s.init).inbox = s.inbox := rfl
@[simp] theorem State.init_rdata : (s.init).rdata = s.rdata := rfl

/-! ## `start` -/

@[simp] theorem State.start_hs : (s.start).hs = s.hs := by simp only [State.start]
@[simp] theorem State.start_msg : (s.start).msg = s.msg := by simp only [State.start]
@[simp] theorem State.start_w : (s.start).w = loadSchedule s.msg s.w := by simp only [State.start]
@[simp] theorem State.start_work : (s.start).work = some (Working.ofDigest s.hs) := by simp only [State.start]
@[simp] theorem State.start_t : (s.start).t = 0 := by simp only [State.start]
@[simp] theorem State.start_busy : (s.start).busy = true := by simp only [State.start]
@[simp] theorem State.start_valid : (s.start).valid = false := by simp only [State.start]
@[simp] theorem State.start_err : (s.start).err = s.err := by simp only [State.start]
@[simp] theorem State.start_errcode : (s.start).errcode = s.errcode := by simp only [State.start]
@[simp] theorem State.start_dinptr : (s.start).dinptr = 0 := by simp only [State.start]
@[simp] theorem State.start_doutptr : (s.start).doutptr = 0 := by simp only [State.start]
@[simp] theorem State.start_inbox : (s.start).inbox = s.inbox := by simp only [State.start]
@[simp] theorem State.start_rdata : (s.start).rdata = s.rdata := by simp only [State.start]

/-! ## `storeDinByte` -/

@[simp] theorem State.storeDinByte_hs (v : Byte) : (s.storeDinByte v).hs = s.hs := rfl
@[simp] theorem State.storeDinByte_msg (v : Byte) : (s.storeDinByte v).msg = setBlockByte s.msg s.dinptr v := rfl
@[simp] theorem State.storeDinByte_w (v : Byte) : (s.storeDinByte v).w = s.w := rfl
@[simp] theorem State.storeDinByte_work (v : Byte) : (s.storeDinByte v).work = s.work := rfl
@[simp] theorem State.storeDinByte_t (v : Byte) : (s.storeDinByte v).t = s.t := rfl
@[simp] theorem State.storeDinByte_busy (v : Byte) : (s.storeDinByte v).busy = s.busy := rfl
@[simp] theorem State.storeDinByte_valid (v : Byte) : (s.storeDinByte v).valid = s.valid := rfl
@[simp] theorem State.storeDinByte_err (v : Byte) : (s.storeDinByte v).err = s.err := rfl
@[simp] theorem State.storeDinByte_errcode (v : Byte) : (s.storeDinByte v).errcode = s.errcode := rfl
@[simp] theorem State.storeDinByte_dinptr (v : Byte) : (s.storeDinByte v).dinptr = s.dinptr + 1 := rfl
@[simp] theorem State.storeDinByte_doutptr (v : Byte) : (s.storeDinByte v).doutptr = s.doutptr := rfl
@[simp] theorem State.storeDinByte_inbox (v : Byte) : (s.storeDinByte v).inbox = s.inbox := rfl
@[simp] theorem State.storeDinByte_rdata (v : Byte) : (s.storeDinByte v).rdata = s.rdata := rfl

/-! ## `readDoutByte` -/

@[simp] theorem State.readDoutByte_hs : (s.readDoutByte).hs = s.hs := rfl
@[simp] theorem State.readDoutByte_msg : (s.readDoutByte).msg = s.msg := rfl
@[simp] theorem State.readDoutByte_w : (s.readDoutByte).w = s.w := rfl
@[simp] theorem State.readDoutByte_work : (s.readDoutByte).work = s.work := rfl
@[simp] theorem State.readDoutByte_t : (s.readDoutByte).t = s.t := rfl
@[simp] theorem State.readDoutByte_busy : (s.readDoutByte).busy = s.busy := rfl
@[simp] theorem State.readDoutByte_valid : (s.readDoutByte).valid = s.valid := rfl
@[simp] theorem State.readDoutByte_err : (s.readDoutByte).err = s.err := rfl
@[simp] theorem State.readDoutByte_errcode : (s.readDoutByte).errcode = s.errcode := rfl
@[simp] theorem State.readDoutByte_dinptr : (s.readDoutByte).dinptr = s.dinptr := rfl
@[simp] theorem State.readDoutByte_doutptr : (s.readDoutByte).doutptr = s.doutptr + 1 := rfl
@[simp] theorem State.readDoutByte_inbox : (s.readDoutByte).inbox = s.inbox := rfl
@[simp] theorem State.readDoutByte_rdata : (s.readDoutByte).rdata = (digestByte s.hs s.doutptr).setWidth 32 :: s.rdata := rfl

/-! ## `storeMsg` -/

@[simp] theorem State.storeMsg_hs (i : Fin 16) (x : Word) : (s.storeMsg i x).hs = s.hs := rfl
@[simp] theorem State.storeMsg_msg (i : Fin 16) (x : Word) : (s.storeMsg i x).msg = s.msg.set i.val x i.isLt := rfl
@[simp] theorem State.storeMsg_w (i : Fin 16) (x : Word) : (s.storeMsg i x).w = s.w := rfl
@[simp] theorem State.storeMsg_work (i : Fin 16) (x : Word) : (s.storeMsg i x).work = s.work := rfl
@[simp] theorem State.storeMsg_t (i : Fin 16) (x : Word) : (s.storeMsg i x).t = s.t := rfl
@[simp] theorem State.storeMsg_busy (i : Fin 16) (x : Word) : (s.storeMsg i x).busy = s.busy := rfl
@[simp] theorem State.storeMsg_valid (i : Fin 16) (x : Word) : (s.storeMsg i x).valid = s.valid := rfl
@[simp] theorem State.storeMsg_err (i : Fin 16) (x : Word) : (s.storeMsg i x).err = s.err := rfl
@[simp] theorem State.storeMsg_errcode (i : Fin 16) (x : Word) : (s.storeMsg i x).errcode = s.errcode := rfl
@[simp] theorem State.storeMsg_dinptr (i : Fin 16) (x : Word) : (s.storeMsg i x).dinptr = s.dinptr := rfl
@[simp] theorem State.storeMsg_doutptr (i : Fin 16) (x : Word) : (s.storeMsg i x).doutptr = s.doutptr := rfl
@[simp] theorem State.storeMsg_inbox (i : Fin 16) (x : Word) : (s.storeMsg i x).inbox = s.inbox := rfl
@[simp] theorem State.storeMsg_rdata (i : Fin 16) (x : Word) : (s.storeMsg i x).rdata = s.rdata := rfl

/-! ## `applyReset` -/

@[simp] theorem State.applyReset_hs : (s.applyReset).hs = State.reset.hs := rfl
@[simp] theorem State.applyReset_msg : (s.applyReset).msg = State.reset.msg := rfl
@[simp] theorem State.applyReset_w : (s.applyReset).w = State.reset.w := rfl
@[simp] theorem State.applyReset_work : (s.applyReset).work = State.reset.work := rfl
@[simp] theorem State.applyReset_t : (s.applyReset).t = State.reset.t := rfl
@[simp] theorem State.applyReset_busy : (s.applyReset).busy = State.reset.busy := rfl
@[simp] theorem State.applyReset_valid : (s.applyReset).valid = State.reset.valid := rfl
@[simp] theorem State.applyReset_err : (s.applyReset).err = State.reset.err := rfl
@[simp] theorem State.applyReset_errcode : (s.applyReset).errcode = State.reset.errcode := rfl
@[simp] theorem State.applyReset_dinptr : (s.applyReset).dinptr = State.reset.dinptr := rfl
@[simp] theorem State.applyReset_doutptr : (s.applyReset).doutptr = State.reset.doutptr := rfl
@[simp] theorem State.applyReset_inbox : (s.applyReset).inbox = s.inbox := rfl
@[simp] theorem State.applyReset_rdata : (s.applyReset).rdata = s.rdata := rfl

/-! ## `afterRound` -/

@[simp] theorem State.afterRound_hs (r : Fin 64) (st : Working) (wt : Word) : (s.afterRound r st wt).hs = s.hs := rfl
@[simp] theorem State.afterRound_msg (r : Fin 64) (st : Working) (wt : Word) : (s.afterRound r st wt).msg = s.msg := rfl
@[simp] theorem State.afterRound_w (r : Fin 64) (st : Working) (wt : Word) : (s.afterRound r st wt).w = if 16 ≤ r.val then s.w.set r.val (some wt) r.isLt else s.w := rfl
@[simp] theorem State.afterRound_work (r : Fin 64) (st : Working) (wt : Word) : (s.afterRound r st wt).work = some (shaRound st kRom[r] wt) := rfl
@[simp] theorem State.afterRound_t (r : Fin 64) (st : Working) (wt : Word) : (s.afterRound r st wt).t = s.t + 1 := rfl
@[simp] theorem State.afterRound_busy (r : Fin 64) (st : Working) (wt : Word) : (s.afterRound r st wt).busy = s.busy := rfl
@[simp] theorem State.afterRound_valid (r : Fin 64) (st : Working) (wt : Word) : (s.afterRound r st wt).valid = s.valid := rfl
@[simp] theorem State.afterRound_err (r : Fin 64) (st : Working) (wt : Word) : (s.afterRound r st wt).err = s.err := rfl
@[simp] theorem State.afterRound_errcode (r : Fin 64) (st : Working) (wt : Word) : (s.afterRound r st wt).errcode = s.errcode := rfl
@[simp] theorem State.afterRound_dinptr (r : Fin 64) (st : Working) (wt : Word) : (s.afterRound r st wt).dinptr = s.dinptr := rfl
@[simp] theorem State.afterRound_doutptr (r : Fin 64) (st : Working) (wt : Word) : (s.afterRound r st wt).doutptr = s.doutptr := rfl
@[simp] theorem State.afterRound_inbox (r : Fin 64) (st : Working) (wt : Word) : (s.afterRound r st wt).inbox = s.inbox := rfl
@[simp] theorem State.afterRound_rdata (r : Fin 64) (st : Working) (wt : Word) : (s.afterRound r st wt).rdata = s.rdata := rfl

/-! ## `afterAccumulate` -/

@[simp] theorem State.afterAccumulate_hs (st : Working) : (s.afterAccumulate st).hs = addWorking s.hs st := rfl
@[simp] theorem State.afterAccumulate_msg (st : Working) : (s.afterAccumulate st).msg = s.msg := rfl
@[simp] theorem State.afterAccumulate_w (st : Working) : (s.afterAccumulate st).w = s.w := rfl
@[simp] theorem State.afterAccumulate_work (st : Working) : (s.afterAccumulate st).work = s.work := rfl
@[simp] theorem State.afterAccumulate_t (st : Working) : (s.afterAccumulate st).t = s.t := rfl
@[simp] theorem State.afterAccumulate_busy (st : Working) : (s.afterAccumulate st).busy = false := rfl
@[simp] theorem State.afterAccumulate_valid (st : Working) : (s.afterAccumulate st).valid = true := rfl
@[simp] theorem State.afterAccumulate_err (st : Working) : (s.afterAccumulate st).err = s.err := rfl
@[simp] theorem State.afterAccumulate_errcode (st : Working) : (s.afterAccumulate st).errcode = s.errcode := rfl
@[simp] theorem State.afterAccumulate_dinptr (st : Working) : (s.afterAccumulate st).dinptr = s.dinptr := rfl
@[simp] theorem State.afterAccumulate_doutptr (st : Working) : (s.afterAccumulate st).doutptr = s.doutptr := rfl
@[simp] theorem State.afterAccumulate_inbox (st : Working) : (s.afterAccumulate st).inbox = s.inbox := rfl
@[simp] theorem State.afterAccumulate_rdata (st : Working) : (s.afterAccumulate st).rdata = s.rdata := rfl

/-! ## `withAccess` -/

@[simp] theorem State.withAccess_hs (a : Access) : (s.withAccess a).hs = s.hs := rfl
@[simp] theorem State.withAccess_msg (a : Access) : (s.withAccess a).msg = s.msg := rfl
@[simp] theorem State.withAccess_w (a : Access) : (s.withAccess a).w = s.w := rfl
@[simp] theorem State.withAccess_work (a : Access) : (s.withAccess a).work = s.work := rfl
@[simp] theorem State.withAccess_t (a : Access) : (s.withAccess a).t = s.t := rfl
@[simp] theorem State.withAccess_busy (a : Access) : (s.withAccess a).busy = s.busy := rfl
@[simp] theorem State.withAccess_valid (a : Access) : (s.withAccess a).valid = s.valid := rfl
@[simp] theorem State.withAccess_err (a : Access) : (s.withAccess a).err = s.err := rfl
@[simp] theorem State.withAccess_errcode (a : Access) : (s.withAccess a).errcode = s.errcode := rfl
@[simp] theorem State.withAccess_dinptr (a : Access) : (s.withAccess a).dinptr = s.dinptr := rfl
@[simp] theorem State.withAccess_doutptr (a : Access) : (s.withAccess a).doutptr = s.doutptr := rfl
@[simp] theorem State.withAccess_inbox (a : Access) : (s.withAccess a).inbox = .access a :: s.inbox := rfl
@[simp] theorem State.withAccess_rdata (a : Access) : (s.withAccess a).rdata = s.rdata := rfl

/-! ## `recordError` and `refuse` -/

@[simp] theorem State.recordError_hs (e : AccessError) : (s.recordError e).hs = s.hs := by
  unfold State.recordError; split <;> rfl
@[simp] theorem State.recordError_msg (e : AccessError) : (s.recordError e).msg = s.msg := by
  unfold State.recordError; split <;> rfl
@[simp] theorem State.recordError_w (e : AccessError) : (s.recordError e).w = s.w := by
  unfold State.recordError; split <;> rfl
@[simp] theorem State.recordError_work (e : AccessError) : (s.recordError e).work = s.work := by
  unfold State.recordError; split <;> rfl
@[simp] theorem State.recordError_t (e : AccessError) : (s.recordError e).t = s.t := by
  unfold State.recordError; split <;> rfl
@[simp] theorem State.recordError_busy (e : AccessError) : (s.recordError e).busy = s.busy := by
  unfold State.recordError; split <;> rfl
@[simp] theorem State.recordError_valid (e : AccessError) : (s.recordError e).valid = s.valid := by
  unfold State.recordError; split <;> rfl
@[simp] theorem State.recordError_dinptr (e : AccessError) : (s.recordError e).dinptr = s.dinptr := by
  unfold State.recordError; split <;> rfl
@[simp] theorem State.recordError_doutptr (e : AccessError) : (s.recordError e).doutptr = s.doutptr := by
  unfold State.recordError; split <;> rfl
@[simp] theorem State.recordError_inbox (e : AccessError) : (s.recordError e).inbox = s.inbox := by
  unfold State.recordError; split <;> rfl
@[simp] theorem State.recordError_rdata (e : AccessError) : (s.recordError e).rdata = s.rdata := by
  unfold State.recordError; split <;> rfl
@[simp] theorem State.recordError_err (e : AccessError) : (s.recordError e).err = true := by
  unfold State.recordError; split <;> simp_all
@[simp] theorem State.recordError_errcode (e : AccessError) :
    (s.recordError e).errcode = if s.err then s.errcode else e.code := by
  unfold State.recordError; split <;> rfl

@[simp] theorem State.refuse_hs (dir : Dir) (e : AccessError) :
    (s.refuse dir e).hs = (s.recordError e).hs := by
  cases dir <;> rfl
@[simp] theorem State.refuse_msg (dir : Dir) (e : AccessError) :
    (s.refuse dir e).msg = (s.recordError e).msg := by
  cases dir <;> rfl
@[simp] theorem State.refuse_w (dir : Dir) (e : AccessError) :
    (s.refuse dir e).w = (s.recordError e).w := by
  cases dir <;> rfl
@[simp] theorem State.refuse_work (dir : Dir) (e : AccessError) :
    (s.refuse dir e).work = (s.recordError e).work := by
  cases dir <;> rfl
@[simp] theorem State.refuse_t (dir : Dir) (e : AccessError) :
    (s.refuse dir e).t = (s.recordError e).t := by
  cases dir <;> rfl
@[simp] theorem State.refuse_busy (dir : Dir) (e : AccessError) :
    (s.refuse dir e).busy = (s.recordError e).busy := by
  cases dir <;> rfl
@[simp] theorem State.refuse_valid (dir : Dir) (e : AccessError) :
    (s.refuse dir e).valid = (s.recordError e).valid := by
  cases dir <;> rfl
@[simp] theorem State.refuse_err (dir : Dir) (e : AccessError) :
    (s.refuse dir e).err = (s.recordError e).err := by
  cases dir <;> rfl
@[simp] theorem State.refuse_errcode (dir : Dir) (e : AccessError) :
    (s.refuse dir e).errcode = (s.recordError e).errcode := by
  cases dir <;> rfl
@[simp] theorem State.refuse_dinptr (dir : Dir) (e : AccessError) :
    (s.refuse dir e).dinptr = (s.recordError e).dinptr := by
  cases dir <;> rfl
@[simp] theorem State.refuse_doutptr (dir : Dir) (e : AccessError) :
    (s.refuse dir e).doutptr = (s.recordError e).doutptr := by
  cases dir <;> rfl
@[simp] theorem State.refuse_inbox (dir : Dir) (e : AccessError) :
    (s.refuse dir e).inbox = (s.recordError e).inbox := by
  cases dir <;> rfl
@[simp] theorem State.refuse_read_rdata (e : AccessError) : (s.refuse .read e).rdata = 0 :: s.rdata := by
  simp [State.refuse]
@[simp] theorem State.refuse_write_rdata (x : Word) (e : AccessError) : (s.refuse (.write x) e).rdata = s.rdata := by
  simp [State.refuse]

/-! ## `runCommands` -/

@[simp] theorem State.runCommands_hs (x : Word) :
    (s.runCommands x).hs = if ctrlInit x then ivRom else s.hs := by
  cases h0 : ctrlInit x <;> cases h1 : ctrlStart x <;> cases h2 : ctrlClrerr x <;> simp [State.runCommands, *]
@[simp] theorem State.runCommands_msg (x : Word) :
    (s.runCommands x).msg = s.msg := by
  cases h0 : ctrlInit x <;> cases h1 : ctrlStart x <;> cases h2 : ctrlClrerr x <;> simp [State.runCommands, *]
@[simp] theorem State.runCommands_w (x : Word) :
    (s.runCommands x).w = if ctrlStart x then loadSchedule s.msg s.w else s.w := by
  cases h0 : ctrlInit x <;> cases h1 : ctrlStart x <;> cases h2 : ctrlClrerr x <;> simp [State.runCommands, *]
@[simp] theorem State.runCommands_work (x : Word) :
    (s.runCommands x).work = if ctrlStart x then some (Working.ofDigest (if ctrlInit x then ivRom else s.hs)) else s.work := by
  cases h0 : ctrlInit x <;> cases h1 : ctrlStart x <;> cases h2 : ctrlClrerr x <;> simp [State.runCommands, *]
@[simp] theorem State.runCommands_t (x : Word) :
    (s.runCommands x).t = if ctrlInit x || ctrlStart x then 0 else s.t := by
  cases h0 : ctrlInit x <;> cases h1 : ctrlStart x <;> cases h2 : ctrlClrerr x <;> simp [State.runCommands, *]
@[simp] theorem State.runCommands_busy (x : Word) :
    (s.runCommands x).busy = (ctrlStart x || s.busy) := by
  cases h0 : ctrlInit x <;> cases h1 : ctrlStart x <;> cases h2 : ctrlClrerr x <;> simp [State.runCommands, *]
@[simp] theorem State.runCommands_valid (x : Word) :
    (s.runCommands x).valid = (!(ctrlInit x || ctrlStart x) && s.valid) := by
  cases h0 : ctrlInit x <;> cases h1 : ctrlStart x <;> cases h2 : ctrlClrerr x <;> simp [State.runCommands, *]
@[simp] theorem State.runCommands_err (x : Word) :
    (s.runCommands x).err = (!ctrlClrerr x && s.err) := by
  cases h0 : ctrlInit x <;> cases h1 : ctrlStart x <;> cases h2 : ctrlClrerr x <;> simp [State.runCommands, *]
@[simp] theorem State.runCommands_errcode (x : Word) :
    (s.runCommands x).errcode = if ctrlClrerr x then 0 else s.errcode := by
  cases h0 : ctrlInit x <;> cases h1 : ctrlStart x <;> cases h2 : ctrlClrerr x <;> simp [State.runCommands, *]
@[simp] theorem State.runCommands_dinptr (x : Word) :
    (s.runCommands x).dinptr = if ctrlInit x || ctrlStart x then 0 else s.dinptr := by
  cases h0 : ctrlInit x <;> cases h1 : ctrlStart x <;> cases h2 : ctrlClrerr x <;> simp [State.runCommands, *]
@[simp] theorem State.runCommands_doutptr (x : Word) :
    (s.runCommands x).doutptr = if ctrlInit x || ctrlStart x then 0 else s.doutptr := by
  cases h0 : ctrlInit x <;> cases h1 : ctrlStart x <;> cases h2 : ctrlClrerr x <;> simp [State.runCommands, *]
@[simp] theorem State.runCommands_inbox (x : Word) :
    (s.runCommands x).inbox = s.inbox := by
  cases h0 : ctrlInit x <;> cases h1 : ctrlStart x <;> cases h2 : ctrlClrerr x <;> simp [State.runCommands, *]
@[simp] theorem State.runCommands_rdata (x : Word) :
    (s.runCommands x).rdata = s.rdata := by
  cases h0 : ctrlInit x <;> cases h1 : ctrlStart x <;> cases h2 : ctrlClrerr x <;> simp [State.runCommands, *]

end Sys2Proof.Machine
end

