-- ==== Sys2Proof/Laws/Steps.lean ====
section
/-! SUPPORT. What a host access, a CORE turn and a step can do: one inversion lemma each, which proofs cite instead of
unfolding the step. -/

namespace Sys2Proof.Machine

open Host (Outcome)

theorem next_inj {s t : State} (h : (Outcome.next s : Outcome State Fault Refusal) = .next t) : t = s := by
  cases h; rfl

/-- Every host access completes: it has an effect or it is refused, and it never stops the block
(60_exceptions.md R161, R180). -/
theorem exec_answers (i : Instr) (s : State) : ∃ t, exec i s = .next t := by
  cases i <;>
    simp only [exec, execRdCtrl, execWrCtrl, execRdStatus, execWrStatus, execRdPtr, execWrPtr, execRdDin, execWrDin,
      execRdDout, execWrDout, execRdMsg, execWrMsg, execRdDigest, execWrDigest, execAccRsvd14, execAccRsvd18,
      execAccRsvd20, execAccRsvdA0, execAccRsvdC0, execAccMisalignedOdd, execAccMisalignedEven,
      execAccBadsizeNarrow, execAccBadsizeX] <;>
    first
      | exact ⟨_, rfl⟩
      | split_ifs <;> exact ⟨_, rfl⟩

/-- Everything a host access can do: return a value, be refused, run CTRL commands, store a DIN byte, return a DOUT
byte, or store a MSG word. -/
theorem exec_cases {i : Instr} {s t : State} (h : exec i s = .next t) :
    (∃ v, t = s.returnRead v) ∨
    (∃ dir e, t = s.refuse dir e) ∨
    (∃ x, i = .wrCtrl x ∧ ctrlReserved x = 0 ∧ ¬ (s.busy = true ∧ (ctrlInit x = true ∨ ctrlStart x = true)) ∧
      t = s.runCommands x) ∨
    (∃ x, i = .wrDin x ∧ dinReserved x = 0 ∧ s.busy = false ∧ t = s.storeDinByte (dinByte x)) ∨
    (i = .rdDout ∧ s.busy = false ∧ t = s.readDoutByte) ∨
    (∃ k x, i = .wrMsg k x ∧ s.busy = false ∧ t = s.storeMsg k x) := by
  cases i
  case rdCtrl => exact .inl ⟨_, next_inj h⟩
  case rdStatus => exact .inl ⟨_, next_inj h⟩
  case rdPtr => exact .inl ⟨_, next_inj h⟩
  case rdDin => exact .inl ⟨_, next_inj h⟩
  case rdMsg k => exact .inl ⟨_, next_inj h⟩
  case wrStatus x => exact .inr (.inl ⟨_, _, next_inj h⟩)
  case wrPtr x => exact .inr (.inl ⟨_, _, next_inj h⟩)
  case wrDout x => exact .inr (.inl ⟨_, _, next_inj h⟩)
  case wrDigest j x => exact .inr (.inl ⟨_, _, next_inj h⟩)
  case accRsvd14 dir => exact .inr (.inl ⟨_, _, next_inj h⟩)
  case accRsvd18 dir r => exact .inr (.inl ⟨_, _, next_inj h⟩)
  case accRsvd20 dir r => exact .inr (.inl ⟨_, _, next_inj h⟩)
  case accRsvdA0 dir r => exact .inr (.inl ⟨_, _, next_inj h⟩)
  case accRsvdC0 dir r => exact .inr (.inl ⟨_, _, next_inj h⟩)
  case accMisalignedOdd dir o => exact .inr (.inl ⟨_, _, next_inj h⟩)
  case accMisalignedEven dir o => exact .inr (.inl ⟨_, _, next_inj h⟩)
  case accBadsizeNarrow dir sz o => exact .inr (.inl ⟨_, _, next_inj h⟩)
  case accBadsizeX dir o => exact .inr (.inl ⟨_, _, next_inj h⟩)
  case rdDigest j =>
    simp only [exec, execRdDigest] at h
    split at h
    · exact .inr (.inl ⟨_, _, next_inj h⟩)
    · exact .inl ⟨_, next_inj h⟩
  case rdDout =>
    simp only [exec, execRdDout] at h
    split at h
    · exact .inr (.inl ⟨_, _, next_inj h⟩)
    next hb => exact .inr (.inr (.inr (.inr (.inl ⟨rfl, by simpa using hb, next_inj h⟩))))
  case wrMsg k x =>
    simp only [exec, execWrMsg] at h
    split at h
    · exact .inr (.inl ⟨_, _, next_inj h⟩)
    next hb => exact .inr (.inr (.inr (.inr (.inr ⟨k, x, rfl, by simpa using hb, next_inj h⟩))))
  case wrDin x =>
    simp only [exec, execWrDin] at h
    split at h
    · exact .inr (.inl ⟨_, _, next_inj h⟩)
    next hr =>
      split at h
      · exact .inr (.inl ⟨_, _, next_inj h⟩)
      next hb =>
        exact .inr (.inr (.inr (.inl ⟨x, rfl, by simpa using hr, by simpa using hb, next_inj h⟩)))
  case wrCtrl x =>
    simp only [exec, execWrCtrl] at h
    split at h
    · exact .inr (.inl ⟨_, _, next_inj h⟩)
    next hr =>
      split at h
      · exact .inr (.inl ⟨_, _, next_inj h⟩)
      next hb => exact .inr (.inr (.inl ⟨x, rfl, by simpa using hr, hb, next_inj h⟩))

/-- Everything a CORE turn can do: nothing while idle, one round, or the accumulation (43_compressor.md R117). -/
theorem coreStep_cases {s t : State} (h : coreStep s = .next t) :
    (s.busy = false ∧ t = s) ∨
    (∃ (hr : s.t.toNat < 64) (st : Working) (wt : Word), s.busy = true ∧ s.work = some st ∧
      s.roundWord ⟨s.t.toNat, hr⟩ = some wt ∧ t = s.afterRound ⟨s.t.toNat, hr⟩ st wt) ∨
    (∃ st : Working, s.busy = true ∧ s.t = 64 ∧ s.work = some st ∧ t = s.afterAccumulate st) := by
  unfold coreStep at h
  split at h
  next hb =>
    split at h
    next hr =>
      unfold roundStep at h
      split at h
      · cases h
      next st hst =>
        split at h
        · cases h
        next wt hwt => exact .inr (.inl ⟨hr, st, wt, hb, hst, hwt, next_inj h⟩)
    next hr =>
      split at h
      next ht =>
        unfold accumulateStep at h
        split at h
        · cases h
        next st hst => exact .inr (.inr ⟨st, hb, ht, hst, next_inj h⟩)
      next => cases h
  next hb => exact .inl ⟨by simpa using hb, next_inj h⟩

/-- Everything an event can do. -/
theorem runEvent_cases {e : Event} {s t : State} (h : runEvent e s = .next t) :
    (∃ a, e = .access a ∧ s.Invariant ∧ exec (decode a) s = .next t) ∨
    (e = .core ∧ s.Invariant ∧ coreStep s = .next t) ∨
    (e = .reset ∧ t = s.applyReset) := by
  cases e with
  | access a =>
    simp only [runEvent] at h
    split at h
    next hi => exact .inl ⟨a, rfl, hi, h⟩
    next => cases h
  | core =>
    simp only [runEvent] at h
    split at h
    next hi => exact .inr (.inl ⟨rfl, hi, h⟩)
    next => cases h
  | reset => exact .inr (.inr ⟨rfl, next_inj h⟩)

/-- A step runs the first event, or gives CORE its turn when there is none. -/
theorem step_cases {s t : State} (h : step s = .next t) :
    (s.inbox = [] ∧ runEvent .core s = .next t) ∨
    (∃ e rest, s.inbox = e :: rest ∧ runEvent e { s with inbox := rest } = .next t) := by
  unfold step takeTurn at h
  split at h
  next hi => exact .inl ⟨hi, h⟩
  next e rest hi => exact .inr ⟨e, rest, hi, h⟩

/-- A round word depends on the schedule alone. -/
theorem State.roundWord_congr {s t : State} (h : s.w = t.w) (r : Fin 64) : s.roundWord r = t.roundWord r := by
  unfold State.roundWord
  rw [h]

/-- The word of a round r >= 16 is there when its four sources are (42_scheduler.md R104). -/
theorem State.roundWord_of_sources (s : State) (r : Fin 64) (hr : 16 ≤ r.val) {a b c d : Word}
    (h16 : s.w[r.val - 16] = some a) (h15 : s.w[r.val - 15] = some b) (h7 : s.w[r.val - 7] = some c)
    (h2 : s.w[r.val - 2] = some d) : s.roundWord r = some (extendWord a b c d) := by
  unfold State.roundWord
  rw [if_pos hr, h16, h15, h7, h2]

/-- The word of a round r < 16 is the one START loaded (42_scheduler.md R104). -/
theorem State.roundWord_early (s : State) (r : Fin 64) (hr : r.val < 16) : s.roundWord r = s.w[r.val] := by
  unfold State.roundWord
  rw [if_neg (by omega)]

end Sys2Proof.Machine
end

