-- ==== Sys2Proof/Laws/HostProgram.lean ====
section
/-! SUPPORT. What one access of a host program can do, and what a run against CORE turns does with its first
statement (30_encoding.md R73, R78; log 16). -/

namespace Sys2Proof.Machine

open Host (Outcome)

/-- A run of any machine goes on from the state its first step leaves. -/
theorem run_succ (M : Host.Core) {s t : M.State} (n : Nat) (h : M.step s = .next t) :
    M.run (n + 1) s = M.run n t := by
  rw [Host.Core.run, h]

/-- CORE's turn in a state whose round has its word (43_compressor.md R115). -/
theorem coreStep_of_round {s : State} {st : Working} {wt : Word} (hr : s.t.toNat < 64) (hb : s.busy = true)
    (hst : s.work = some st) (hwt : s.roundWord ⟨s.t.toNat, hr⟩ = some wt) :
    coreStep s = .next (s.afterRound ⟨s.t.toNat, hr⟩ st wt) := by
  unfold coreStep roundStep
  rw [if_pos hb, dif_pos hr, hst]
  simp only [hwt]

/-- CORE's turn after the last round (44_accumulator_serializer.md R127). -/
theorem coreStep_of_accumulate {s : State} {st : Working} (ht : s.t = 64) (hb : s.busy = true)
    (hst : s.work = some st) : coreStep s = .next (s.afterAccumulate st) := by
  have hr : ¬ s.t.toNat < 64 := by rw [ht]; decide
  unfold coreStep accumulateStep
  rw [if_pos hb, dif_neg hr, if_pos ht, hst]

/-- CORE neither reads nor writes the events still to come. -/
theorem coreStep_withInbox {s t : State} (l : List Event) (h : coreStep s = .next t) :
    coreStep { s with inbox := l } = .next { t with inbox := l } := by
  rcases coreStep_cases h with ⟨hb, rfl⟩ | ⟨hr, st, wt, hb, hst, hwt, rfl⟩ | ⟨st, hb, ht, hst, rfl⟩
  · unfold coreStep
    exact if_neg (by rw [hb]; decide)
  · exact coreStep_of_round (s := { s with inbox := l }) hr hb hst hwt
  · exact coreStep_of_accumulate (s := { s with inbox := l }) ht hb hst

/-- An access with no CORE turn before it is the access itself. -/
theorem issueAfter_zero {s : State} (st : Stmt) (h : s.Invariant) :
    issueAfter 0 st s = exec (decode (stmtAccess st)) s := by
  have hs : step (s.withAccessAfter 0 st) = exec (decode (stmtAccess st)) s := by
    show runEvent (.access (stmtAccess st)) s = _
    simp only [runEvent, if_pos h]
  obtain ⟨t, ht⟩ := exec_answers (decode (stmtAccess st)) s
  unfold issueAfter
  rw [ht]
  exact run_succ Sys2Proof.core 0 (hs.trans ht)

/-- A CORE turn before an access is a step of CORE first. -/
theorem issueAfter_succ {s t : State} (n : Nat) (st : Stmt) (h : s.Invariant) (ht : coreStep s = .next t)
    (hin : t.inbox = s.inbox) : issueAfter (n + 1) st s = issueAfter n st t := by
  have hi : State.Invariant { s with inbox := List.replicate n .core ++ stmtEvents [st] ++ s.inbox } := h
  have hs : step (s.withAccessAfter (n + 1) st) = .next (t.withAccessAfter n st) := by
    show runEvent .core { s with inbox := List.replicate n .core ++ stmtEvents [st] ++ s.inbox } = _
    simp only [runEvent, if_pos hi]
    rw [coreStep_withInbox _ ht, State.withAccessAfter, hin]
  exact run_succ Sys2Proof.core (n + 1) hs

@[simp] theorem runHost_nil (turns : List Nat) (s : State) : runHost turns [] s = .ended turns s := by
  cases turns <;> rfl

@[simp] theorem runHost_no_turns (stmt : HostStmt) (prog : List HostStmt) (s : State) :
    runHost [] (stmt :: prog) s = .pending (stmt :: prog) s := by
  cases stmt <;> rfl

theorem runHost_access {n : Nat} {st : Stmt} {s t : State} (turns : List Nat) (prog : List HostStmt)
    (h : issueAfter n st s = .next t) : runHost (n :: turns) (.access st :: prog) s = runHost turns prog t := by
  simp only [runHost, h]

/-- A poll that reads bit 0 = 1 starts the WAIT again (30_encoding.md R73). -/
theorem runHost_wait_busy {n : Nat} {s t : State} (turns : List Nat) (prog : List HostStmt)
    (h : issueAfter n pseudoPoll s = .next t) (hb : t.readBusy = true) :
    runHost (n :: turns) (.wait :: prog) s = runHost turns (.wait :: prog) t := by
  simp only [runHost, h, hb, if_true]

/-- A poll that reads bit 0 = 0 ends it (30_encoding.md R73). -/
theorem runHost_wait_idle {n : Nat} {s t : State} (turns : List Nat) (prog : List HostStmt)
    (h : issueAfter n pseudoPoll s = .next t) (hb : t.readBusy = false) :
    runHost (n :: turns) (.wait :: prog) s = runHost turns prog t := by
  simp only [runHost, h, hb, Bool.false_eq_true, if_false]

end Sys2Proof.Machine
end

