-- ==== Sys2Proof/Laws/Operands.lean ====
section
/-! SUPPORT. What the byte view of words gives and keeps: a byte just set reads back, and every other byte reads as
before (20_memory.md R47, 45_host_access.md R140). -/

namespace Sys2Proof.Machine

theorem wordByte_getLsbD (x : Word) (k : Fin 4) (i : Nat) :
    (wordByte x k).getLsbD i = (decide (i < 8) && x.getLsbD (24 - 8 * k.val + i)) := by
  simp [wordByte]

theorem setWordByte_getLsbD (x : Word) (k : Fin 4) (v : Byte) (i : Nat) (hi : i < 32) :
    (setWordByte x k v).getLsbD i =
      if 24 - 8 * k.val ≤ i ∧ i < 32 - 8 * k.val then v.getLsbD (i - (24 - 8 * k.val)) else x.getLsbD i := by
  have hmask : ∀ n : Nat, (0xFF#32).getLsbD n = decide (n < 8) := by
    intro n
    by_cases h : n < 32
    · interval_cases n <;> rfl
    · rw [BitVec.getLsbD_of_ge _ _ (by omega)]; simp; omega
  have hk := k.isLt
  simp only [setWordByte, BitVec.getLsbD_or, BitVec.getLsbD_and, BitVec.getLsbD_not, BitVec.getLsbD_shiftLeft,
    BitVec.getLsbD_setWidth, hmask, hi, decide_true, Bool.true_and]
  by_cases h1 : i < 24 - 8 * k.val
  · have : ¬ (24 - 8 * k.val ≤ i) := by omega
    simp [h1, this]
  · by_cases h2 : i < 32 - 8 * k.val
    · have h3 : i - (24 - 8 * k.val) < 8 := by omega
      have h4 : i - (24 - 8 * k.val) < 32 := by omega
      have h5 : 24 - 8 * k.val ≤ i := by omega
      simp [h1, h2, h3, h4, h5]
    · have h3 : ¬ (i - (24 - 8 * k.val) < 8) := by omega
      have h4 : ¬ (24 - 8 * k.val ≤ i ∧ i < 32 - 8 * k.val) := by omega
      simp only [h1, h3, if_neg h4, decide_false, Bool.not_false, Bool.true_and, Bool.and_true]
      rw [BitVec.getLsbD_of_ge v _ (by omega)]
      simp

/-- A byte just set reads back, and the three others read as before. -/
theorem wordByte_setWordByte (x : Word) (k k' : Fin 4) (v : Byte) :
    wordByte (setWordByte x k v) k' = if k' = k then v else wordByte x k' := by
  apply BitVec.eq_of_getLsbD_eq
  intro i hi
  have hk := k.isLt
  have hk' := k'.isLt
  rw [wordByte_getLsbD, setWordByte_getLsbD _ _ _ _ (by omega)]
  by_cases h : k' = k
  · subst h
    have h1 : 24 - 8 * k'.val ≤ 24 - 8 * k'.val + i ∧ 24 - 8 * k'.val + i < 32 - 8 * k'.val := by omega
    rw [if_pos h1, if_pos rfl]
    simp [hi]
  · have hne : k'.val ≠ k.val := fun e => h (Fin.ext e)
    have h1 : ¬ (24 - 8 * k.val ≤ 24 - 8 * k'.val + i ∧ 24 - 8 * k'.val + i < 32 - 8 * k.val) := by omega
    rw [if_neg h1, if_neg h, wordByte_getLsbD]

theorem block_index_ext {p q : BitVec 6} (h1 : blockWordIndex p = blockWordIndex q)
    (h2 : laneIndex p = laneIndex q) : p = q := by
  have a := congrArg Fin.val h1
  have b := congrArg Fin.val h2
  simp only [blockWordIndex, laneIndex] at a b
  exact BitVec.eq_of_toNat_eq (by omega)

theorem block_getElem_set (m : Block) (i j : Fin 16) (x : Word) :
    (m.set i.val x i.isLt)[j] = if j = i then x else m[j] := by
  by_cases h : j = i
  · subst h; simp
  · rw [if_neg h]
    exact Vector.getElem_set_ne _ _ (fun e => h (Fin.ext e.symm))

/-- A block byte just set reads back, and the 63 others read as before (20_memory.md R47). -/
theorem blockByte_setBlockByte (m : Block) (p q : BitVec 6) (v : Byte) :
    blockByte (setBlockByte m p v) q = if q = p then v else blockByte m q := by
  unfold blockByte setBlockByte
  rw [block_getElem_set]
  by_cases hw : blockWordIndex q = blockWordIndex p
  · rw [if_pos hw, wordByte_setWordByte]
    by_cases hl : laneIndex q = laneIndex p
    · rw [if_pos hl, if_pos (block_index_ext hw hl)]
    · rw [if_neg hl, if_neg (fun e => hl (by rw [e]))]
      simp only [hw]
  · rw [if_neg hw, if_neg (fun e => hw (by rw [e]))]

/-- START's schedule: the block in W[0..15], every other word as it was (43_compressor.md R113). -/
theorem loadSchedule_getElem (m : Block) (w : Vector (Option Word) 64) (i : Nat) (hi : i < 64) :
    (loadSchedule m w)[i] = if h : i < 16 then some m[i] else w[i] := by
  simp [loadSchedule]

theorem blockWords_getElem (B : Vector Byte 64) (i : Nat) (hi : i < 16) :
    (blockWords B)[i] = B[4 * i] ++ B[4 * i + 1] ++ B[4 * i + 2] ++ B[4 * i + 3] := by
  simp [blockWords]

theorem serialize_getElem (h : Digest) (k : Nat) (hk : k < 32) :
    (serialize h)[k] = digestByte h (BitVec.ofNat 5 k) := by
  simp only [serialize, Vector.getElem_ofFn]
  exact congrArg (digestByte h) (BitVec.eq_of_toNat_eq (by simp; omega))

end Sys2Proof.Machine
end

