-- ==== Sys2Proof/Laws/PerInstr.lean ====
section
/-! SUPPORT. Statements made per instruction. `Laws.EncodesInRow`: the descriptor an instruction encodes to is one its
own row of the opcode map names (30_encoding.md R67). -/

namespace Sys2Proof.Laws.EncodesInRow

/-- The descriptor of the instruction's access is named by the match and mask of the instruction's row. -/
def Statement (i : Instr) : Prop := i.row.covers (encode i).d = true

theorem rdCtrl : Statement (.rdCtrl) := by
  have h : ((Instr.row (.rdCtrl)).covers (encode (.rdCtrl)).d) = true := by decide
  exact h
theorem wrCtrl (wdata : Word) : Statement (.wrCtrl wdata) := by
  have h : ((Instr.row (.wrCtrl 0)).covers (encode (.wrCtrl 0)).d) = true := by decide
  exact h
theorem rdStatus : Statement (.rdStatus) := by
  have h : ((Instr.row (.rdStatus)).covers (encode (.rdStatus)).d) = true := by decide
  exact h
theorem wrStatus (wdata : Word) : Statement (.wrStatus wdata) := by
  have h : ((Instr.row (.wrStatus 0)).covers (encode (.wrStatus 0)).d) = true := by decide
  exact h
theorem rdPtr : Statement (.rdPtr) := by
  have h : ((Instr.row (.rdPtr)).covers (encode (.rdPtr)).d) = true := by decide
  exact h
theorem wrPtr (wdata : Word) : Statement (.wrPtr wdata) := by
  have h : ((Instr.row (.wrPtr 0)).covers (encode (.wrPtr 0)).d) = true := by decide
  exact h
theorem rdDin : Statement (.rdDin) := by
  have h : ((Instr.row (.rdDin)).covers (encode (.rdDin)).d) = true := by decide
  exact h
theorem wrDin (wdata : Word) : Statement (.wrDin wdata) := by
  have h : ((Instr.row (.wrDin 0)).covers (encode (.wrDin 0)).d) = true := by decide
  exact h
theorem rdDout : Statement (.rdDout) := by
  have h : ((Instr.row (.rdDout)).covers (encode (.rdDout)).d) = true := by decide
  exact h
theorem wrDout (wdata : Word) : Statement (.wrDout wdata) := by
  have h : ((Instr.row (.wrDout 0)).covers (encode (.wrDout 0)).d) = true := by decide
  exact h
theorem rdMsg (i : Fin 16) : Statement (.rdMsg i) := by
  have h : ∀ (i : Fin 16), ((Instr.row (.rdMsg i)).covers (encode (.rdMsg i)).d) = true := by decide
  exact h i
theorem wrMsg (i : Fin 16) (wdata : Word) : Statement (.wrMsg i wdata) := by
  have h : ∀ (i : Fin 16), ((Instr.row (.wrMsg i 0)).covers (encode (.wrMsg i 0)).d) = true := by decide
  exact h i
theorem rdDigest (j : Fin 8) : Statement (.rdDigest j) := by
  have h : ∀ (j : Fin 8), ((Instr.row (.rdDigest j)).covers (encode (.rdDigest j)).d) = true := by decide
  exact h j
theorem wrDigest (j : Fin 8) (wdata : Word) : Statement (.wrDigest j wdata) := by
  have h : ∀ (j : Fin 8), ((Instr.row (.wrDigest j 0)).covers (encode (.wrDigest j 0)).d) = true := by decide
  exact h j
theorem accRsvd14 (dir : Dir) : Statement (.accRsvd14 dir) := by
  cases dir with
  | read =>
    have h : ((Instr.row (.accRsvd14 .read)).covers (encode (.accRsvd14 .read)).d) = true := by decide
    exact h
  | write wdata =>
    have h : ((Instr.row (.accRsvd14 (.write 0))).covers (encode (.accRsvd14 (.write 0))).d) = true := by decide
    exact h
theorem accRsvd18 (dir : Dir) (r : BitVec 1) : Statement (.accRsvd18 dir r) := by
  cases dir with
  | read =>
    have h : ∀ (r : BitVec 1), ((Instr.row (.accRsvd18 .read r)).covers (encode (.accRsvd18 .read r)).d) = true := by decide
    exact h r
  | write wdata =>
    have h : ∀ (r : BitVec 1), ((Instr.row (.accRsvd18 (.write 0) r)).covers (encode (.accRsvd18 (.write 0) r)).d) = true := by decide
    exact h r
theorem accRsvd20 (dir : Dir) (r : BitVec 3) : Statement (.accRsvd20 dir r) := by
  cases dir with
  | read =>
    have h : ∀ (r : BitVec 3), ((Instr.row (.accRsvd20 .read r)).covers (encode (.accRsvd20 .read r)).d) = true := by decide
    exact h r
  | write wdata =>
    have h : ∀ (r : BitVec 3), ((Instr.row (.accRsvd20 (.write 0) r)).covers (encode (.accRsvd20 (.write 0) r)).d) = true := by decide
    exact h r
theorem accRsvdA0 (dir : Dir) (r : BitVec 3) : Statement (.accRsvdA0 dir r) := by
  cases dir with
  | read =>
    have h : ∀ (r : BitVec 3), ((Instr.row (.accRsvdA0 .read r)).covers (encode (.accRsvdA0 .read r)).d) = true := by decide
    exact h r
  | write wdata =>
    have h : ∀ (r : BitVec 3), ((Instr.row (.accRsvdA0 (.write 0) r)).covers (encode (.accRsvdA0 (.write 0) r)).d) = true := by decide
    exact h r
theorem accRsvdC0 (dir : Dir) (r : BitVec 4) : Statement (.accRsvdC0 dir r) := by
  cases dir with
  | read =>
    have h : ∀ (r : BitVec 4), ((Instr.row (.accRsvdC0 .read r)).covers (encode (.accRsvdC0 .read r)).d) = true := by decide
    exact h r
  | write wdata =>
    have h : ∀ (r : BitVec 4), ((Instr.row (.accRsvdC0 (.write 0) r)).covers (encode (.accRsvdC0 (.write 0) r)).d) = true := by decide
    exact h r
theorem accMisalignedOdd (dir : Dir) (o : BitVec 7) : Statement (.accMisalignedOdd dir o) := by
  cases dir with
  | read =>
    have h : ∀ (o : BitVec 7), ((Instr.row (.accMisalignedOdd .read o)).covers (encode (.accMisalignedOdd .read o)).d) = true := by decide
    exact h o
  | write wdata =>
    have h : ∀ (o : BitVec 7), ((Instr.row (.accMisalignedOdd (.write 0) o)).covers (encode (.accMisalignedOdd (.write 0) o)).d) = true := by decide
    exact h o
theorem accMisalignedEven (dir : Dir) (o : BitVec 6) : Statement (.accMisalignedEven dir o) := by
  cases dir with
  | read =>
    have h : ∀ (o : BitVec 6), ((Instr.row (.accMisalignedEven .read o)).covers (encode (.accMisalignedEven .read o)).d) = true := by decide
    exact h o
  | write wdata =>
    have h : ∀ (o : BitVec 6), ((Instr.row (.accMisalignedEven (.write 0) o)).covers (encode (.accMisalignedEven (.write 0) o)).d) = true := by decide
    exact h o
theorem accBadsizeNarrow (dir : Dir) (sz : BitVec 1) (o : BitVec 8) : Statement (.accBadsizeNarrow dir sz o) := by
  cases dir with
  | read =>
    have h : ∀ (sz : BitVec 1) (o : BitVec 8), ((Instr.row (.accBadsizeNarrow .read sz o)).covers (encode (.accBadsizeNarrow .read sz o)).d) = true := by decide
    exact h sz o
  | write wdata =>
    have h : ∀ (sz : BitVec 1) (o : BitVec 8), ((Instr.row (.accBadsizeNarrow (.write 0) sz o)).covers (encode (.accBadsizeNarrow (.write 0) sz o)).d) = true := by decide
    exact h sz o
theorem accBadsizeX (dir : Dir) (o : BitVec 8) : Statement (.accBadsizeX dir o) := by
  cases dir with
  | read =>
    have h : ∀ (o : BitVec 8), ((Instr.row (.accBadsizeX .read o)).covers (encode (.accBadsizeX .read o)).d) = true := by decide
    exact h o
  | write wdata =>
    have h : ∀ (o : BitVec 8), ((Instr.row (.accBadsizeX (.write 0) o)).covers (encode (.accBadsizeX (.write 0) o)).d) = true := by decide
    exact h o

end Sys2Proof.Laws.EncodesInRow
end

