-- ==== Sys2Proof/Machine/Platform.lean ====
section
/-! DEFINITION. Where the window sits in the host's address space (20_memory.md R44). The block never sees a host
address, only an offset; no definition of the block uses this file. -/

namespace Sys2Proof.Machine

/-- The host address that reaches an offset: `SHA_BASE + OFF` (20_memory.md R44). -/
def hostAddress (off : BitVec 8) : Nat := Config.shaBase + off.toNat

/-- The offset that a host address reaches; none outside the 256 bytes of the window (20_memory.md R43, R44). -/
def windowOffset (addr : Nat) : Option (BitVec 8) :=
  if Config.shaBase ≤ addr ∧ addr < Config.shaBase + 256 then some (BitVec.ofNat 8 (addr - Config.shaBase)) else none

end Sys2Proof.Machine
end

