-- ==== Sys2Proof/Laws/Platform.lean ====
section
/-! SUPPORT. The window in the host's address space, wherever the platform puts it (20_memory.md R44). -/

namespace Sys2Proof.Machine

/-- The host address of an offset reaches that offset. -/
theorem windowOffset_hostAddress (off : BitVec 8) : windowOffset (hostAddress off) = some off := by
  have h := off.isLt
  unfold windowOffset hostAddress
  rw [if_pos ⟨by omega, by omega⟩]
  simp

end Sys2Proof.Machine
end

