-- ==== Sys2Proof/Laws/Schedule.lean ====
section
/-! SUPPORT. The schedule as a list grows at its end, and one more round is one more `shaRound` (42_scheduler.md
R101, 43_compressor.md R120). -/

namespace Sys2Proof.Machine

@[simp] theorem scheduleList_length (m : Block) (n : Nat) : (scheduleList m n).length = 16 + n := by
  induction n with
  | zero => simp [scheduleList]
  | succ n ih => simp [scheduleList, ih]; omega

/-- A word once in the list stays the same as the list grows. -/
theorem scheduleList_getD_succ (m : Block) (n i : Nat) (hi : i < 16 + n) :
    (scheduleList m (n + 1)).getD i 0 = (scheduleList m n).getD i 0 := by
  simp only [scheduleList, List.getD_eq_getElem?_getD]
  rw [List.getElem?_append_left (by simpa using hi)]

theorem scheduleList_getD_add (m : Block) (n k i : Nat) (hi : i < 16 + n) :
    (scheduleList m (n + k)).getD i 0 = (scheduleList m n).getD i 0 := by
  induction k with
  | zero => rfl
  | succ k ih => rw [← Nat.add_assoc, scheduleList_getD_succ _ _ _ (by omega), ih]

/-- A word of the schedule is a word of the list (42_scheduler.md R101). -/
theorem schedule_getElem (m : Block) (i : Nat) (hi : i < 64) : (schedule m)[i] = (scheduleList m 48).getD i 0 := by
  unfold schedule
  exact Vector.getElem_ofFn hi

/-- The word the list grows by (42_scheduler.md R101). -/
theorem scheduleList_getD_last (m : Block) (n : Nat) :
    (scheduleList m (n + 1)).getD (16 + n) 0 =
      extendWord ((scheduleList m n).getD n 0) ((scheduleList m n).getD (n + 1) 0) ((scheduleList m n).getD (n + 9) 0)
        ((scheduleList m n).getD (n + 14) 0) := by
  rw [scheduleList]
  rw [List.getD_eq_getElem?_getD, List.getElem?_append_right (by rw [scheduleList_length]), scheduleList_length,
    Nat.sub_self]
  rfl

/-- A word of the schedule is there as soon as the list is long enough. -/
theorem schedule_eq_list (m : Block) (n i : Nat) (hn : n ≤ 48) (hi : i < 16 + n) :
    (schedule m)[i]'(by omega) = (scheduleList m n).getD i 0 := by
  have h48 : (48 : Nat) = n + (48 - n) := by omega
  rw [schedule_getElem, h48, scheduleList_getD_add _ _ _ _ hi]

theorem afterRounds_zero (h : Digest) (m : Block) : afterRounds h m 0 = Working.ofDigest h := by
  unfold afterRounds
  rfl

theorem afterRounds_succ (h : Digest) (m : Block) (n : Nat) (hn : n < 64) :
    afterRounds h m (n + 1) = shaRound (afterRounds h m n) kRom[n] (schedule m)[n] := by
  have hn' : n < (List.finRange 64).length := by simpa using hn
  unfold afterRounds
  simp only
  rw [List.take_succ_eq_append_getElem hn', List.foldl_append]
  simp

end Sys2Proof.Machine
end

