-- ==== Sys2Proof/Tests/Slice0.lean ====
section
/-! SUPPORT. Tests: terms that WellFormed refuses, a word of every row of the opcode map, the worked examples of the
spec, and a state for every statement of Certificates/Slice0 that has hypotheses. Expected results are the spec's own
(95_test_vectors.md, or the example of the rule a test names). -/

namespace Sys2Proof.Tests

open Sys2Proof.Machine

/-- The state an answer leaves, if it is a next state. -/
def after (o : Host.Outcome State Fault Refusal) : Option State :=
  match o with
  | .next t => some t
  | .fault _ => none
  | .refused _ => none

/-- A field of the state an answer leaves. -/
def get {α : Type} (f : State → α) (o : Host.Outcome State Fault Refusal) : Option α := (after o).map f

/-- The block of the message "abc" (42_scheduler.md R98, example). -/
def abcBlock : Block := #v[0x61626380, 0, 0, 0, 0, 0, 0, 0, 0, 0, 0, 0, 0, 0, 0, 0x00000018]

/-- The reset state with "abc" loaded. -/
def loaded : State := { State.reset with msg := abcBlock }

/-- The state that START leaves (43_compressor.md R113, example). -/
def busyState : State := loaded.start

/-- Compress(IV, "abc" block) (43_compressor.md R120, example). -/
def abcWorking : Working :=
  ⟨0x506E3058, 0xD39A2165, 0x04D24D6C, 0xB85E2CE9, 0x5EF50F24, 0xFB121210, 0x948D25B6, 0x961F4894⟩

/-- The state before the accumulate step of "abc" (44_accumulator_serializer.md R127, example). -/
def lastTurn : State := { busyState with t := 64, work := some abcWorking }

/-- The idle state with the digest of "abc" (44_accumulator_serializer.md R127, example). -/
def abcDone : State :=
  { loaded with
    hs := #v[0xBA7816BF, 0x8F01CFEA, 0x414140DE, 0x5DAE2223, 0xB00361A3, 0x96177A9C, 0xB410FF61, 0xF20015AD]
    work := some abcWorking
    t := 64
    valid := true }

/-! ## WellFormed -/

theorem test_frame_descriptor_too_wide : ¬ AccessFrame.WellFormed ⟨0x800, 0⟩ := by decide
theorem test_frame_data_too_wide : ¬ AccessFrame.WellFormed ⟨0x600, 0x100000000⟩ := by decide
theorem test_frame_read_with_data : ¬ AccessFrame.WellFormed ⟨0x204, 1⟩ := by decide
theorem test_frame_well_formed : AccessFrame.WellFormed ⟨0x7FF, 0xFFFFFFFF⟩ := by decide
theorem test_frame_rejects_by_name :
    AccessFrame.check ⟨0x800, 0⟩ = .error .descriptorTooWide ∧
    AccessFrame.check ⟨0x600, 0x100000000⟩ = .error .dataTooWide ∧
    AccessFrame.check ⟨0x204, 1⟩ = .error .readWithData := ⟨rfl, rfl, rfl⟩
theorem test_operand_msg_16 : RegOperand.wellFormed (.msg 16) = false := by decide
theorem test_operand_digest_8 : RegOperand.wellFormed (.digest 8) = false := by decide
theorem test_operand_raw_256 : RegOperand.wellFormed (.raw 256) = false := by decide
theorem test_stmt_value_too_wide : Stmt.wellFormed (.wr .word .ctrl 0x100000000) = false := by decide
theorem test_stmt_well_formed : Stmt.wellFormed (.wr .word (.msg 15) 0xFFFFFFFF) = true := by decide

/-! ## Decode: a word of every row, spelled from its pattern (30_encoding.md R67) -/

theorem test_word_rdCtrl : decodeTableWord 16 0b01000000000 = some .rdCtrl := by decide
theorem test_word_wrCtrl : decodeTableWord 48 (0x00000002 * 2 ^ 16 + 0b11000000000) = some (.wrCtrl 2) := by decide
theorem test_word_rdStatus : decodeTableWord 16 0b01000000100 = some .rdStatus := by decide
theorem test_word_wrStatus : decodeTableWord 16 0b11000000100 = some (.wrStatus 0) := by decide
theorem test_word_rdPtr : decodeTableWord 16 0b01000001000 = some .rdPtr := by decide
theorem test_word_wrPtr : decodeTableWord 16 0b11000001000 = some (.wrPtr 0) := by decide
theorem test_word_rdDin : decodeTableWord 16 0b01000001100 = some .rdDin := by decide
theorem test_word_wrDin : decodeTableWord 48 (0x00000080 * 2 ^ 16 + 0b11000001100) = some (.wrDin 0x80) := by decide
theorem test_word_rdDout : decodeTableWord 16 0b01000010000 = some .rdDout := by decide
theorem test_word_wrDout : decodeTableWord 16 0b11000010000 = some (.wrDout 0) := by decide
theorem test_word_rdMsg : decodeTableWord 16 0b01001101000 = some (.rdMsg 10) := by decide
theorem test_word_wrMsg :
    decodeTableWord 48 (0x61626380 * 2 ^ 16 + 0b11001000100) = some (.wrMsg 1 0x61626380) := by decide
theorem test_word_rdDigest : decodeTableWord 16 0b01010011000 = some (.rdDigest 6) := by decide
theorem test_word_wrDigest : decodeTableWord 16 0b11010000100 = some (.wrDigest 1 0) := by decide
theorem test_word_accRsvd14 : decodeTableWord 16 0b01000010100 = some (.accRsvd14 .read) := by decide
theorem test_word_accRsvd18 : decodeTableWord 16 0b11000011100 = some (.accRsvd18 (.write 0) 1) := by decide
theorem test_word_accRsvd20 : decodeTableWord 16 0b01000111000 = some (.accRsvd20 .read 6) := by decide
theorem test_word_accRsvdA0 : decodeTableWord 16 0b01010110000 = some (.accRsvdA0 .read 4) := by decide
theorem test_word_accRsvdC0 : decodeTableWord 16 0b11011100000 = some (.accRsvdC0 (.write 0) 8) := by decide
theorem test_word_accMisalignedOdd :
    decodeTableWord 16 0b01000010001 = some (.accMisalignedOdd .read 8) := by decide
theorem test_word_accMisalignedEven :
    decodeTableWord 16 0b11001000010 = some (.accMisalignedEven (.write 0) 16) := by decide
theorem test_word_accBadsizeNarrow :
    decodeTableWord 16 0b00000010000 = some (.accBadsizeNarrow .read 0 0x10) := by decide
theorem test_word_accBadsizeX :
    decodeTableWord 16 0b11100000100 = some (.accBadsizeX (.write 0) 4) := by decide

/-- `WR MSG[1], 0x00000000` assembles to d = 0x644 (30_encoding.md R72, example). -/
theorem test_assemble_wr_msg1 : assemble (.wr .word (.msg 1) 0) = some ⟨0x644, 0⟩ := by decide
/-- `RD.B DOUT` assembles to d = 0x010 (45_host_access.md R148, example). -/
theorem test_assemble_rd_b_dout : assemble (.rd .byte .dout) = some ⟨0x010, 0⟩ := by decide
theorem test_assemble_ill_formed : assemble (.rd .word (.msg 16)) = none := by decide
/-- The encoder writes the same words. -/
theorem test_encode_words :
    encode (.rdMsg 10) = ⟨0b01001101000, 0⟩ ∧ encode (.wrDigest 1 7) = ⟨0b11010000100, 7⟩ ∧
    encode (.accMisalignedEven (.write 3) 16) = ⟨0b11001000010, 3⟩ := by decide

/-! ## Primitives and datapath functions (95_test_vectors.md 2.1, 2.2, 2.4) -/

theorem test_rotr : rotr 0x12345678 8 = 0x78123456 ∧ rotr 0x80000000 31 = 0x00000001 := by decide
theorem test_shr : shr 0x80000000 3 = 0x10000000 ∧ shr 0xFFFFFFFF 10 = 0x003FFFFF := by decide
theorem test_sigmas :
    sigma0 0x12345678 = 0xE7FCE6EE ∧ sigma1 0x12345678 = 0xA1F78649 ∧
    bigSigma0 0x12345678 = 0x66146474 ∧ bigSigma1 0x12345678 = 0x3561ABDA := by decide
theorem test_ch_maj :
    ch 0xFF00FF00 0x12345678 0x9ABCDEF0 = 0x12BC56F0 ∧ maj 0xFF00FF00 0x12345678 0x9ABCDEF0 = 0x9A34DE70 := by decide
/-- 43_compressor.md R114, example. -/
theorem test_round_of_iv :
    shaRound (Working.ofDigest ivRom) kRom[0] 0x61626380 =
      ⟨0x5D6AEBCD, 0x6A09E667, 0xBB67AE85, 0x3C6EF372, 0xFA2A4622, 0x510E527F, 0x9B05688C, 0x1F83D9AB⟩ := by decide
/-- W[17] and W[18] of "abc" (42_scheduler.md R101, example). -/
theorem test_extend_word :
    extendWord 0 0 0 0x00000018 = 0x000F0000 ∧ extendWord 0 0 0 0x61626380 = 0x7DA86405 := by decide
/-- 44_accumulator_serializer.md R129, example. -/
theorem test_serialize_iv : ((serialize ivRom).toList.take 6) = [0x6A, 0x09, 0xE6, 0x67, 0xBB, 0x67] := by decide
/-- 41_padding_host.md R91, examples. -/
theorem test_pad_zeros :
    padZeros 0 = 55 ∧ padZeros 3 = 52 ∧ padZeros 55 = 0 ∧ padZeros 56 = 63 ∧ padZeros 63 = 56 ∧ padZeros 64 = 55 := by
  decide
/-- The block words of Pad("abc") (95_test_vectors.md 1.1, 42_scheduler.md R98). -/
theorem test_pad_abc :
    (pad [0x61, 0x62, 0x63]).map messageBlocks = Except.ok [abcBlock] := by rfl

/-! ## Reads -/

theorem test_rdCtrl : get (·.rdata) (exec .rdCtrl busyState) = some [0] := by decide
theorem test_rdDin : get (fun t => (t.rdata, t.dinptr)) (exec .rdDin { loaded with dinptr := 3 }) = some ([0], 3) := by
  decide
/-- 44_accumulator_serializer.md R127, example: ROUND = 64 and VALID = 1. -/
theorem test_rdStatus_done : get (·.rdata) (exec .rdStatus abcDone) = some [0x00400002] := by decide
/-- 44_accumulator_serializer.md R126, example: ERR = 1 and ERRCODE = 6. -/
theorem test_rdStatus_error :
    get (·.rdata) (exec .rdStatus { loaded with err := true, errcode := 6 }) = some [0x00000604] := by decide
/-- 45_host_access.md R142, example: three DIN writes and five DOUT reads. -/
theorem test_rdPtr : get (·.rdata) (exec .rdPtr { loaded with dinptr := 3, doutptr := 5 }) = some [0x00000503] := by
  decide
/-- 44_accumulator_serializer.md R131: the last byte of "abc", and DOUTPTR wraps. -/
theorem test_rdDout_wraps :
    get (fun t => (t.rdata, t.doutptr)) (exec .rdDout { abcDone with doutptr := 31 }) = some ([0xAD], 0) := by decide
theorem test_rdDout_busy :
    get (fun t => (t.rdata, t.doutptr, t.errcode)) (exec .rdDout busyState) = some ([0], 0, 6) := by decide
theorem test_rdMsg_busy : get (fun t => (t.rdata, t.err)) (exec (.rdMsg 15) busyState) = some ([0x18], false) := by
  decide
/-- 44_accumulator_serializer.md R130, example. -/
theorem test_rdDigest : get (·.rdata) (exec (.rdDigest 7) abcDone) = some [0xF20015AD] := by decide
theorem test_rdDigest_busy :
    get (fun t => (t.rdata, t.err, t.errcode)) (exec (.rdDigest 7) busyState) = some ([0], true, 6) := by decide

/-! ## Writes -/

/-- 45_host_access.md R137, example: START; STATUS then reads 0x00000001. -/
theorem test_wrCtrl_start : get (·.statusWord) (exec (.wrCtrl 2) loaded) = some 0x00000001 := by decide
/-- INITSTART runs INIT before START (45_host_access.md R137). -/
theorem test_wrCtrl_initstart :
    get (fun t => (t.hs, t.work, t.busy)) (exec (.wrCtrl 3) abcDone) =
      some (ivRom, some (Working.ofDigest ivRom), true) := by decide
/-- 45_host_access.md R140, example: the byte 0x80 after 0x61, 0x62, 0x63. -/
theorem test_wrDin :
    get (fun t => (t.msg[0], t.dinptr))
      (exec (.wrDin 0x80) { State.reset with msg := State.reset.msg.set 0 0x616263FF, dinptr := 3 }) =
      some (0x61626380, 4) := by decide
theorem test_wrDin_wraps :
    get (fun t => (t.msg[15], t.dinptr)) (exec (.wrDin 0xAB) { loaded with dinptr := 63 }) = some (0x000000AB, 0) := by
  decide
/-- 45_host_access.md R144, example. -/
theorem test_wrMsg : get (·.msg) (exec (.wrMsg 15 0x00000018) { loaded with msg := abcBlock.set 15 7 }) = some abcBlock := by
  decide
theorem test_wrMsg_busy :
    get (fun t => (t.msg, t.errcode)) (exec (.wrMsg 0 0) busyState) = some (abcBlock, 6) := by decide
theorem test_wrStatus : get (·.errcode) (exec (.wrStatus 0) loaded) = some 4 := by decide
theorem test_wrPtr : get (fun t => (t.dinptr, t.errcode)) (exec (.wrPtr 9) loaded) = some (0, 4) := by decide
theorem test_wrDout : get (·.errcode) (exec (.wrDout 0) busyState) = some 4 := by decide
/-- 45_host_access.md R145, example. -/
theorem test_wrDigest : get (fun t => (t.hs, t.err, t.errcode)) (exec (.wrDigest 0 0) loaded) = some (ivRom, true, 4) := by
  decide

/-! ## Illegal accesses -/

/-- 45_host_access.md R146, example: `RD @0x14`. -/
theorem test_accRsvd14 :
    get (fun t => (t.rdata, t.errcode)) (exec (.accRsvd14 .read) loaded) = some ([0], 3) := by decide
theorem test_accRsvd18 : get (·.errcode) (exec (.accRsvd18 (.write 1) 1) busyState) = some 3 := by decide
theorem test_accRsvd20 : get (·.errcode) (exec (.accRsvd20 .read 7) loaded) = some 3 := by decide
theorem test_accRsvdA0 : get (·.errcode) (exec (.accRsvdA0 .read 0) loaded) = some 3 := by decide
theorem test_accRsvdC0 : get (·.errcode) (exec (.accRsvdC0 .read 15) loaded) = some 3 := by decide
theorem test_accMisalignedOdd :
    get (fun t => (t.rdata, t.errcode)) (exec (.accMisalignedOdd .read 0) loaded) = some ([0], 2) := by decide
/-- 45_host_access.md R147, example: `WR @0x42, 0x1`. -/
theorem test_accMisalignedEven :
    get (fun t => (t.msg, t.rdata, t.errcode)) (exec (.accMisalignedEven (.write 1) 16) loaded) =
      some (abcBlock, [], 2) := by decide
/-- 45_host_access.md R148, example: `RD.B DOUT`. -/
theorem test_accBadsizeNarrow :
    get (fun t => (t.rdata, t.doutptr, t.errcode)) (exec (.accBadsizeNarrow .read 0 0x10) abcDone) =
      some ([0], 0, 1) := by decide
theorem test_accBadsizeX : get (·.errcode) (exec (.accBadsizeX .read 0xFF) loaded) = some 1 := by decide
/-- The first error is kept (60_exceptions.md R165). -/
theorem test_first_error_kept :
    get (·.errcode) (exec (.accRsvd14 .read) { loaded with err := true, errcode := 6 }) = some 6 := by decide

/-! ## CORE and the step -/

/-- 43_compressor.md R115, example: STATUS reads 0x00010001 after the first round. -/
theorem test_first_round :
    get (fun t => (t.statusWord, t.work)) (step busyState) = some (0x00010001, some
      ⟨0x5D6AEBCD, 0x6A09E667, 0xBB67AE85, 0x3C6EF372, 0xFA2A4622, 0x510E527F, 0x9B05688C, 0x1F83D9AB⟩) := by decide
/-- 42_scheduler.md R104, example: the round step for t = 16 writes W[16] = 0x61626380. -/
theorem test_round_16_writes_schedule :
    get (fun t => (t.w[16], t.t)) (step { busyState with t := 16 }) = some (some 0x61626380, 17) := by decide
/-- 44_accumulator_serializer.md R127, example. -/
theorem test_accumulate : get (fun t => (t.hs, t.statusWord)) (step lastTurn) = some (abcDone.hs, 0x00400002) := by
  decide
/-- The step runs a placed access as the first after reset, and reset is applied while BUSY = 1. -/
theorem test_step_runs_access :
    get (fun t => (t.rdata, t.inbox)) (step (State.reset.withFetchWord 16 0x280)) = some ([0x6A09E667], []) := by decide
theorem test_step_reset :
    get (fun t => (t.busy, t.work, t.hs)) (step { busyState with inbox := [.reset] }) = some (false, none, ivRom) := by
  decide
/-- A state outside the invariants is stuck (60_exceptions.md R179 item 3), and so is absent internal state. -/
theorem test_step_stuck :
    step { loaded with errcode := 7 } = .fault .invariantBroken ∧
    step { busyState with work := none } = .fault .absentWorking ∧
    step { busyState with w := State.reset.w } = .fault .absentSchedule := ⟨rfl, rfl, rfl⟩

/-! ## Host programs (30_encoding.md R73) -/

/-- A WAIT before the accumulate step polls once with bit 0 = 1, and ends at the poll after CORE's turn. -/
theorem test_wait_loops_until_idle :
    (match runHost [0, 1, 7] [.wait] lastTurn with
      | .ended left t => some (left, t.rdata)
      | .pending _ _ => none
      | .stopped => none) = some ([7], [0x00400002, 0x00400001]) := by decide
theorem test_wait_goes_on_while_busy : runHost [0] [.wait] busyState =
    .pending [.wait] { busyState with rdata := [0x00000001] } := by decide

/-! ## Witnesses: a state that meets all the hypotheses of each statement together -/

theorem witness_StepRunsIssuedAccess :
    (∃ (s : State) (a : Access) (rest : List Event), s.inbox = .access a :: rest ∧ s.Invariant) ∧
    ∃ (s : State) (nbits w : Nat) (i : Instr), s.Invariant ∧ decodeTableWord nbits w = some i :=
  ⟨⟨loaded.withAccess ⟨0x204, 0⟩, ⟨0x204, 0⟩, [], rfl, by decide⟩, busyState, 16, 0x204, .rdStatus, by decide, rfl⟩

theorem witness_StepGivesCoreItsTurn :
    (∃ (s : State) (rest : List Event), s.Invariant ∧ s.inbox = .core :: rest) ∧
    ∃ s : State, s.Invariant ∧ s.inbox = [] :=
  ⟨⟨{ busyState with inbox := [.core] }, [], by decide, rfl⟩, busyState, by decide, rfl⟩

theorem witness_ResetSetsEveryElement : State.ResetNext { busyState with inbox := [.reset] } := ⟨[], rfl⟩

theorem witness_EveryStepKeepsInvariants : ∃ s t : State, s.Invariant ∧ step s = .next t :=
  ⟨busyState, _, by decide, rfl⟩

theorem witness_ReachableStatesHaveInvariants : ∃ s : State, Reachable s ∧ s.busy = true :=
  ⟨_, .step (.start [.access ⟨0x600, 2⟩]) rfl, rfl⟩

/-- A block in progress, and the same block before its accumulate step. -/
theorem busyState_present : busyState.Present := by
  refine ⟨fun _ h => (by cases h), fun _ i hi h => ?_⟩
  have h16 : i < 16 := by simpa [busyState, State.start] using h
  simp [busyState, State.start, loadSchedule, h16]

theorem witness_SafeStatesGoOn : ∃ s : State, s.Safe ∧ s.busy = true :=
  ⟨busyState, ⟨by decide, busyState_present⟩, rfl⟩

theorem witness_DigestReadReturnsWord : abcDone.busy = false ∧ busyState.busy = true := ⟨rfl, rfl⟩

theorem witness_DoutReadReturnsNextByte : State.busy { abcDone with doutptr := 31 } = false ∧ busyState.busy = true :=
  ⟨rfl, rfl⟩

theorem witness_ReadbytesSerialisesDigest : ∃ (s : State) (rest : List Event), s.Invariant ∧ s.busy = false ∧
    s.doutptr = 0 ∧ s.inbox = stmtEvents pseudoReadbytes ++ rest :=
  ⟨{ abcDone with inbox := stmtEvents pseudoReadbytes }, [], by decide, rfl, rfl, by simp⟩

theorem witness_MsgWriteSetsWord : loaded.busy = false ∧ busyState.busy = true := ⟨rfl, rfl⟩

theorem witness_DinWriteSetsByte :
    (0x00000100#32).extractLsb' 8 24 ≠ 0 ∧
    (∃ (s : State) (wdata : Word), wdata.extractLsb' 8 24 = 0 ∧ s.busy = true) ∧
    (∃ (s : State) (wdata : Word), wdata.extractLsb' 8 24 = 0 ∧ s.busy = false ∧ s.dinptr = 0) ∧
    ∃ (s : State) (wdata : Word), wdata.extractLsb' 8 24 = 0 ∧ s.busy = false ∧ s.dinptr = 63 :=
  ⟨by decide, ⟨busyState, 0xFF, by decide, rfl⟩, ⟨loaded, 0xFF, by decide, rfl, rfl⟩,
    { loaded with dinptr := 63 }, 0x80, by decide, rfl, rfl⟩

theorem witness_LoadbytesLoadsBlockWords : ∃ (s : State) (B : Vector Byte 64) (rest : List Event),
    s.Invariant ∧ s.busy = false ∧ s.dinptr = 0 ∧ s.inbox = stmtEvents (pseudoLoadbytes B) ++ rest :=
  ⟨{ abcDone with inbox := stmtEvents (pseudoLoadbytes (Vector.replicate 64 0x5A)) }, Vector.replicate 64 0x5A, [],
    by decide, rfl, rfl, by simp⟩

theorem witness_LoadblkLoadsBlock : ∃ (s : State) (m : Block) (rest : List Event),
    s.Invariant ∧ s.busy = false ∧ s.inbox = stmtEvents (pseudoLoadblk m) ++ rest :=
  ⟨{ State.reset with inbox := stmtEvents (pseudoLoadblk abcBlock) }, abcBlock, [], by decide, rfl, by simp⟩

theorem witness_InitSeedsDigest : abcDone.busy = false := rfl

theorem witness_StartBeginsBlock : loaded.busy = false := rfl

theorem witness_CtrlWriteRunsCommands :
    (0x00000008#32).extractLsb' 3 29 ≠ 0 ∧
    (∃ (s : State) (wdata : Word), wdata.extractLsb' 3 29 = 0 ∧ s.busy = true ∧
      (wdata.getLsbD 0 = true ∨ wdata.getLsbD 1 = true)) ∧
    (∃ (s : State) (wdata : Word), wdata.extractLsb' 3 29 = 0 ∧ s.busy = true ∧
      (s.busy = true → wdata.getLsbD 0 = false ∧ wdata.getLsbD 1 = false)) ∧
    ∃ (s : State) (wdata : Word), wdata.extractLsb' 3 29 = 0 ∧ s.busy = false ∧
      (s.busy = true → wdata.getLsbD 0 = false ∧ wdata.getLsbD 1 = false) :=
  ⟨by decide, ⟨busyState, 5, by decide, rfl, by decide⟩, ⟨busyState, 4, by decide, rfl, by decide⟩,
    loaded, 7, by decide, rfl, by decide⟩

theorem witness_ReservedBitsRefused :
    (0x00000008#32).extractLsb' 3 29 ≠ 0 ∧ (0x80000000#32).extractLsb' 3 29 ≠ 0 ∧
    (0x00000100#32).extractLsb' 8 24 ≠ 0 ∧ (0x80000000#32).extractLsb' 8 24 ≠ 0 ∧ loaded.busy = false := by decide

theorem witness_BusyRefusesTheseOnly :
    busyState.busy = true ∧
    ((0x00000001#32).extractLsb' 3 29 = 0 ∧ (0x00000001#32).getLsbD 0 = true) ∧
    ((0x00000006#32).extractLsb' 3 29 = 0 ∧ (0x00000006#32).getLsbD 1 = true) ∧
    (0x000000FF#32).extractLsb' 8 24 = 0 := by decide

theorem witness_ReservedOffsetsRefused :
    (∃ a : Access, a.size = 0b10#2 ∧ a.off.extractLsb' 0 2 = 0b00#2 ∧ (0x14#8 ≤ a.off ∧ a.off ≤ 0x3C#8)) ∧
    ∃ a : Access, a.size = 0b10#2 ∧ a.off.extractLsb' 0 2 = 0b00#2 ∧ (0xA0#8 ≤ a.off ∧ a.off ≤ 0xFC#8) :=
  ⟨⟨⟨0x23C, 0⟩, by decide⟩, ⟨0x6FC, 0⟩, by decide⟩

theorem witness_MisalignedRefused : ∃ a : Access, a.size = 0b10#2 ∧ a.off.extractLsb' 0 2 ≠ 0b00#2 :=
  ⟨⟨0x201, 0⟩, by decide⟩

theorem witness_BadsizeRefused : ∃ a : Access, a.size ≠ 0b10#2 := ⟨⟨0x7FF, 0⟩, by decide⟩

/-- A cause of each code, the others left aside, each at a boundary of its range. -/
theorem witness_LowestCodeReported_badSize : lowestCause .badSize ⟨0x143, 0⟩ loaded := by
  refine ⟨by simp [applies, Access.size], fun e' _ => ?_⟩
  cases e' <;> decide

theorem witness_LowestCodeReported_misaligned : lowestCause .misaligned ⟨0x23F, 0⟩ loaded := by
  refine ⟨by simp [applies, Access.off], fun e' h => ?_⟩
  cases e' <;> first
    | decide
    | simp [applies, Access.size] at h

theorem witness_LowestCodeReported_reservedOffset :
    lowestCause .reservedOffset ⟨0x23C, 0⟩ loaded ∧ lowestCause .reservedOffset ⟨0x2A0, 0⟩ busyState := by
  refine ⟨⟨by simp [applies, Access.off, inReservedRange], fun e' h => ?_⟩,
    ⟨by simp [applies, Access.off, inReservedRange], fun e' h => ?_⟩⟩ <;>
  cases e' <;> first
    | decide
    | simp [applies, Access.size, Access.off] at h

theorem witness_LowestCodeReported_readOnlyWrite : lowestCause .readOnlyWrite ⟨0x69C, 0⟩ busyState := by
  refine ⟨by simp [applies, Access.off, Access.isWrite, isReadOnly], fun e' h => ?_⟩
  cases e' <;> first
    | decide
    | simp [applies, Access.size, Access.off, inReservedRange] at h

theorem witness_LowestCodeReported_reservedBits : lowestCause .reservedBits ⟨0x60C, 0x100⟩ busyState := by
  refine ⟨by simp [applies, Access.off, Access.isWrite, setsReservedBits, dinReserved], fun e' h => ?_⟩
  cases e' <;> first
    | decide
    | simp [applies, Access.size, Access.off, Access.isWrite, inReservedRange, isReadOnly] at h

theorem witness_LowestCodeReported_busyAccess : lowestCause .busyAccess ⟨0x67C, 0⟩ busyState := by
  refine ⟨⟨rfl, .inl ⟨by decide, .inr (.inl (by decide))⟩⟩, fun e' h => ?_⟩
  cases e' <;> first
    | decide
    | simp [applies, Access.size, Access.off, Access.isWrite, inReservedRange, isReadOnly, setsReservedBits] at h

theorem witness_NoCauseNoError : ∃ (a : Access) (s : State), s.busy = true ∧ ∀ e, ¬ applies e a s := by
  refine ⟨⟨0x600, 4⟩, busyState, rfl, fun e h => ?_⟩
  cases e <;> simp [applies, Access.size, Access.off, Access.isWrite, inReservedRange, isReadOnly, setsReservedBits,
    ctrlReserved, touchesBlock, ctrlInit, ctrlStart] at h

theorem witness_ClassRaisesItsCodesOnly : ∃ (i : Instr) (s t : State),
    exec i s = .next t ∧ s.err = false ∧ t.err = true :=
  ⟨.rdDout, busyState, _, rfl, rfl, rfl⟩

/-- Each of the three ways is taken by some state. -/
theorem witness_OnlyClrerrAndResetClearError :
    (∃ s t : State, s.err = true ∧ step s = .next t ∧ t.err = true) ∧
    (∃ s t : State, s.err = true ∧ step s = .next t ∧ t.err = false ∧ s.ResetNext) ∧
    ∃ s t : State, s.err = true ∧ step s = .next t ∧ t.err = false ∧ s.Issues (.wrCtrl 4) :=
  ⟨⟨{ busyState with err := true, errcode := 4 }, _, rfl, rfl, rfl⟩,
    ⟨{ busyState with err := true, errcode := 4, inbox := [.reset] }, _, rfl, rfl, rfl, [], rfl⟩,
    { busyState with err := true, errcode := 4, inbox := [.access ⟨0x600, 4⟩] }, _, rfl, rfl, rfl, ⟨0x600, 4⟩, [],
      rfl, by decide⟩

theorem witness_OnlyTheseWriteDigest :
    (∃ s t : State, step s = .next t ∧ t.hs ≠ s.hs ∧ s.CoreTurn ∧ s.busy = true ∧ s.t = 64) ∧
    ∃ s t : State, step s = .next t ∧ t.hs ≠ s.hs ∧ s.Issues (.wrCtrl 1) ∧ s.busy = false :=
  ⟨⟨lastTurn, _, rfl, by decide, .inl rfl, rfl, rfl⟩,
    { abcDone with inbox := [.access ⟨0x600, 1⟩] }, _, rfl, by decide, ⟨⟨0x600, 1⟩, [], rfl, by decide⟩, rfl⟩

theorem witness_OnlyTheseWriteBlock :
    (∃ s t : State, step s = .next t ∧ t.msg ≠ s.msg ∧ s.Issues (.wrMsg 0 5)) ∧
    ∃ s t : State, step s = .next t ∧ t.msg ≠ s.msg ∧ s.Issues (.wrDin 5) :=
  ⟨⟨{ abcDone with inbox := [.access ⟨0x640, 5⟩] }, _, rfl, by decide, ⟨0x640, 5⟩, [], rfl, by decide⟩,
    { abcDone with inbox := [.access ⟨0x60C, 5⟩] }, _, rfl, by decide, ⟨0x60C, 5⟩, [], rfl, by decide⟩

theorem witness_BusyAndValidChangeOnlyHere :
    (∃ s t : State, step s = .next t ∧ s.busy = false ∧ t.busy = true) ∧
    (∃ s t : State, step s = .next t ∧ s.busy = true ∧ t.busy = false ∧ s.ResetNext) ∧
    ∃ s t : State, step s = .next t ∧ s.busy = true ∧ t.busy = false ∧ s.valid = false ∧ t.valid = true :=
  ⟨⟨{ loaded with inbox := [.access ⟨0x600, 2⟩] }, _, rfl, rfl, rfl⟩,
    ⟨{ busyState with inbox := [.reset] }, _, rfl, rfl, rfl, [], rfl⟩, lastTurn, _, rfl, rfl, rfl, rfl, rfl⟩

theorem witness_BusyBlockUndisturbed : ∃ (i : Instr) (s t : State), s.busy = true ∧ exec i s = .next t :=
  ⟨.wrMsg 3 5, busyState, _, rfl, rfl⟩

theorem witness_IdleCoreHasNoStep : abcDone.busy = false ∧ abcDone.Invariant ∧ abcDone.inbox = [] := by decide

/-- The first clause at t = 0 and t = 15. -/
theorem witness_RoundStepRunsOneRound_early :
    (∃ (s : State) (st : Working) (wt : Word) (_ : s.t.toNat < 16), s.busy = true ∧ s.work = some st ∧
      s.w[s.t.toNat] = some wt ∧ s.t = 0) ∧
    ∃ (s : State) (st : Working) (wt : Word) (_ : s.t.toNat < 16), s.busy = true ∧ s.work = some st ∧
      s.w[s.t.toNat] = some wt ∧ s.t = 15 :=
  ⟨⟨busyState, _, 0x61626380, by decide, rfl, rfl, rfl, rfl⟩,
    { busyState with t := 15 }, _, 0x00000018, by decide, rfl, rfl, rfl, rfl⟩

/-- The second clause at t = 16 and t = 63. -/
theorem witness_RoundStepRunsOneRound_late :
    (∃ (s : State) (st : Working) (a b c d : Word) (_ : 16 ≤ s.t.toNat) (_ : s.t.toNat < 64), s.busy = true ∧
      s.work = some st ∧ s.w[s.t.toNat - 16] = some a ∧ s.w[s.t.toNat - 15] = some b ∧
      s.w[s.t.toNat - 7] = some c ∧ s.w[s.t.toNat - 2] = some d ∧ s.t = 16) ∧
    ∃ (s : State) (st : Working) (a b c d : Word) (_ : 16 ≤ s.t.toNat) (_ : s.t.toNat < 64), s.busy = true ∧
      s.work = some st ∧ s.w[s.t.toNat - 16] = some a ∧ s.w[s.t.toNat - 15] = some b ∧
      s.w[s.t.toNat - 7] = some c ∧ s.w[s.t.toNat - 2] = some d ∧ s.t = 63 :=
  ⟨⟨{ busyState with t := 16 }, _, 0x61626380, 0, 0, 0, by decide, by decide, rfl, rfl, rfl, rfl, rfl, rfl, rfl⟩,
    { busyState with t := 63, w := Vector.replicate 64 (some 7) }, _, 7, 7, 7, 7, by decide, by decide, rfl, rfl, rfl,
      rfl, rfl, rfl, rfl⟩

theorem witness_AccumulateStepAddsWords : ∃ (s : State) (st : Working), s.busy = true ∧ s.t = 64 ∧ s.work = some st :=
  ⟨lastTurn, abcWorking, rfl, rfl, rfl⟩

theorem witness_StartPutsBlockInProgress : ∃ s t : State, s.Invariant ∧ s.busy = false ∧
    exec (.wrCtrl 0x00000002#32) s = .next t :=
  ⟨loaded, _, by decide, rfl, rfl⟩

theorem busyState_words :
    ∀ (i : Nat) (h : i < 16), busyState.w[i] = some ((scheduleList abcBlock 0).getD i 0) := by decide

theorem busyState_inBlock : State.InBlock ivRom abcBlock busyState where
  busy := rfl
  invariant := by decide
  digest := rfl
  block := rfl
  work := congrArg some (afterRounds_zero ivRom abcBlock).symm
  words := fun i _ hlt => by
    have h16 : i < 16 := by simpa [busyState, State.start] using hlt
    rw [schedule_eq_list abcBlock 0 i (by omega) (by omega)]
    exact busyState_words i h16

/-- The block at t = 64, with every schedule word there. -/
def lastTurnOf (h : Digest) (m : Block) : State :=
  { busyState with hs := h, msg := m, t := 64, work := some (afterRounds h m 64), w := (schedule m).map some }

theorem not_resetNext_of_empty {s : State} (h : s.inbox = []) : ¬ s.ResetNext := by
  rintro ⟨rest, hr⟩
  simp [h] at hr

theorem lastTurnOf_inBlock (h : Digest) (m : Block) : State.InBlock h m (lastTurnOf h m) where
  busy := rfl
  invariant := (by decide : lastTurn.Invariant)
  digest := rfl
  block := rfl
  work := rfl
  words := fun i hi _ => by simp [lastTurnOf]

theorem witness_BlockInProgressKept :
    (∃ s t : State, State.InBlock ivRom abcBlock s ∧ ¬ s.ResetNext ∧ step s = .next t ∧ s.t = 0) ∧
    ∃ s t : State, State.InBlock ivRom abcBlock s ∧ ¬ s.ResetNext ∧ step s = .next t ∧ s.t = 64 :=
  ⟨⟨busyState, _, busyState_inBlock, not_resetNext_of_empty rfl, rfl, rfl⟩,
    lastTurnOf ivRom abcBlock, _, lastTurnOf_inBlock _ _, not_resetNext_of_empty rfl, rfl, rfl⟩

theorem witness_BlockLaw : ∃ (s : State) (rest : List Event), s.Invariant ∧ s.busy = false ∧
    s.inbox = stmtEvents [pseudoStart] ++ List.replicate 65 .core ++ rest :=
  ⟨{ loaded with inbox := stmtEvents [pseudoStart] ++ List.replicate 65 .core }, [], by decide, rfl, by simp⟩

theorem witness_WaitEnds :
    (∃ (s : State) (turns left : List Nat) (t : State), s.Safe ∧ runHost turns [.wait] s = .ended left t) ∧
    ∃ (s : State) (turns : List Nat), s.Safe ∧ s.busy = true ∧ 65 ≤ turns.sum :=
  ⟨⟨State.reset, [0], [], _, ⟨by decide, ⟨fun h => absurd h (by decide), fun h => absurd h (by decide)⟩⟩, rfl⟩,
    busyState, [0, 30, 35], ⟨by decide, busyState_present⟩, rfl, by decide⟩

theorem witness_BlockPseudoCompresses : ∃ (s : State) (m : Block) (turns : List Nat), s.Invariant ∧ s.busy = false ∧
    (∀ n ∈ turns, 1 ≤ n) ∧ mostAccesses (pseudoBlock m) ≤ turns.length :=
  ⟨State.reset, abcBlock, List.replicate 82 1, by decide, rfl, by decide, by decide⟩

theorem witness_DigestOfMessage : ∃ (s : State) (M P : List Byte) (blocks : List (LoadForm × Vector Byte 64))
    (read : ReadForm) (turns : List Nat), s.Invariant ∧ s.busy = false ∧ pad M = .ok P ∧
    blocks.map Prod.snd = splitBlocks P ∧ (∀ n ∈ turns, 1 ≤ n) ∧
    mostAccesses (digestProgram blocks read) ≤ turns.length := by
  refine ⟨abcDone, [0x61, 0x62, 0x63], _, (splitBlocks _).map fun B => (.bytes, B), .bytes, List.replicate 200 1,
    by decide, rfl, rfl, by rw [List.map_map]; exact List.map_id _,
    fun n hn => (List.eq_of_mem_replicate hn).ge, by rw [List.length_replicate]; decide⟩

theorem witness_PaddedMessageIsWholeBlocks :
    (∃ M P : List Byte, pad M = .ok P) ∧ ∃ (P : List Byte) (b : Nat), b < P.length / 64 :=
  ⟨⟨[0x61, 0x62, 0x63], _, rfl⟩, List.replicate 64 0, 0, by decide⟩

theorem witness_PadZerosIsLeast : (55 + 1 + 0 + 8) % 64 = 0 ∧ (56 + 1 + 63 + 8) % 64 = 0 := by decide

theorem witness_PadWritesEveryByte :
    (∃ M : List Byte, 2 ^ 61 ≤ M.length) ∧ ∃ M : List Byte, M.length < 2 ^ 61 :=
  ⟨⟨List.replicate (2 ^ 61) 0, by rw [List.length_replicate]⟩, [], by decide⟩

end Sys2Proof.Tests
end

namespace Sys2Proof.Machine

/-! ## Writes with reserved data bits (30_encoding.md R69) -/

/-- A refused write, in the terms the statements use. -/
theorem State.refuse_write_eq (s : State) (wdata : Word) (e : AccessError) :
    s.refuse (.write wdata) e = refusedWrite s e.code :=
  s.refuse_eq (.write wdata) e

/-- The reserved bits of a CTRL write are checked first, so BUSY does not matter (45_host_access.md R137). -/
theorem exec_wrCtrl_of_reserved (s : State) {wdata : Word} (h : ctrlReserved wdata ≠ 0) :
    exec (.wrCtrl wdata) s = .next (refusedWrite s AccessError.reservedBits.code) := by
  simp only [exec, execWrCtrl, if_pos h, State.refuse_write_eq]

/-- The reserved bits of a DIN write are checked first, so BUSY does not matter (45_host_access.md R140). -/
theorem exec_wrDin_of_reserved (s : State) {wdata : Word} (h : dinReserved wdata ≠ 0) :
    exec (.wrDin wdata) s = .next (refusedWrite s AccessError.reservedBits.code) := by
  simp only [exec, execWrDin, if_pos h, State.refuse_write_eq]

/-- An idle MSG write stores its word, whatever its data bits are (45_host_access.md R144). -/
theorem exec_wrMsg_of_idle {s : State} (h : s.busy = false) (i : Fin 16) (wdata : Word) :
    exec (.wrMsg i wdata) s = .next (s.storeMsg i wdata) := by
  simp [exec, execWrMsg, h]

/-- Settles O29: CTRL and DIN check their reserved bits before BUSY, and `storeMsg` leaves ERR and ERRCODE. -/
theorem reservedBitsRefused : Obligations.ReservedBitsRefused := by
  refine ⟨fun s _ hres => exec_wrCtrl_of_reserved s hres, fun s _ hres => exec_wrDin_of_reserved s hres,
    fun s i wdata hidle => ?_⟩
  exact ⟨s.storeMsg i wdata, exec_wrMsg_of_idle hidle i wdata, s.storeMsg_err i wdata, s.storeMsg_errcode i wdata⟩

end Sys2Proof.Machine

namespace Sys2Proof.Machine

/-! ## Rotation, logical shift and the sigmas (40_primitives.md R79, R80) -/

/-- Rotation by the model's amounts is the library's rotation. -/
theorem rotr_eq_rotateRight (x : Word) (b : Fin 32) : rotr x b = x.rotateRight b.val := by
  rw [BitVec.rotateRight_def, Nat.mod_eq_of_lt b.isLt, rotr]
  split
  case isTrue hzero => simp [hzero]
  case isFalse => rfl

/-- Rotation by 0 is the identity. -/
@[simp] theorem rotr_zero (x : Word) : rotr x 0 = x := if_pos rfl

/-- A bit below the wrap comes from b places above it; a bit past the wrap comes from the low end
(40_primitives.md R79). -/
theorem getLsbD_rotr (x : Word) (b k : Fin 32) :
    (rotr x b).getLsbD k = x.getLsbD ((k.val + b.val) % 32) := by
  rw [rotr_eq_rotateRight, BitVec.getLsbD_rotateRight, Nat.mod_eq_of_lt b.isLt]
  by_cases hwrap : k.val < 32 - b.val
  · have hsource : (k.val + b.val) % 32 = b.val + k.val := by omega
    simp [hwrap, hsource]
  · have hsource : (k.val + b.val) % 32 = k.val - (32 - b.val) := by omega
    simp [hwrap, hsource]

/-- The guard of the zero fill is R80's; it is implied by the width of a word. -/
theorem getLsbD_shr (x : Word) (b k : Fin 32) :
    (shr x b).getLsbD k = if k.val + b.val ≤ 31 then x.getLsbD (k.val + b.val) else false := by
  rw [shr, BitVec.getLsbD_ushiftRight, Nat.add_comm b.val]
  split
  case isTrue => rfl
  case isFalse hout => exact BitVec.getLsbD_of_ge x _ (by omega)

/-- As a number, a logical right shift divides. -/
theorem toNat_shr (x : Word) (b : Fin 32) : (shr x b).toNat = x.toNat / 2 ^ b.val := by
  rw [shr, BitVec.toNat_ushiftRight, Nat.shiftRight_eq_div_pow]

/-- Bit k of a small sigma (42_scheduler.md R99, R100), for any two rotations and a shift. -/
theorem getLsbD_rotr_xor_rotr_xor_shr (x : Word) (b c d k : Fin 32) :
    (rotr x b ^^^ rotr x c ^^^ shr x d).getLsbD k =
      (x.getLsbD ((k.val + b.val) % 32) ^^ x.getLsbD ((k.val + c.val) % 32) ^^
        if k.val + d.val ≤ 31 then x.getLsbD (k.val + d.val) else false) := by
  simp only [BitVec.getLsbD_xor, getLsbD_rotr, getLsbD_shr]

/-- Bit k of a big sigma (43_compressor.md R111, R112), for any three rotations. -/
theorem getLsbD_rotr_xor_rotr_xor_rotr (x : Word) (b c d k : Fin 32) :
    (rotr x b ^^^ rotr x c ^^^ rotr x d).getLsbD k =
      (x.getLsbD ((k.val + b.val) % 32) ^^ x.getLsbD ((k.val + c.val) % 32) ^^
        x.getLsbD ((k.val + d.val) % 32)) := by
  simp only [BitVec.getLsbD_xor, getLsbD_rotr]

/-- Settles O48: `rotr` is the library's rotation, and each sigma is an instance of the two general shapes at the
amounts of 40_primitives.md R83. -/
theorem rotateShiftAndSigmaBits : Obligations.RotateShiftAndSigmaBits := by
  refine ⟨fun x b => ⟨getLsbD_rotr x b, rotr_zero x, getLsbD_shr x b, toNat_shr x b⟩, fun x k => ?_⟩
  exact ⟨getLsbD_rotr_xor_rotr_xor_shr x 7 18 3 k, getLsbD_rotr_xor_rotr_xor_shr x 17 19 10 k,
    getLsbD_rotr_xor_rotr_xor_rotr x 2 13 22 k, getLsbD_rotr_xor_rotr_xor_rotr x 6 11 25 k⟩

end Sys2Proof.Machine

namespace Sys2Proof.Machine

/-! ## The words of the schedule (42_scheduler.md R101) -/

/-- The schedule starts with the block. -/
theorem schedule_getElem_of_lt (m : Block) (i : Nat) (hi : i < 16) : (schedule m)[i] = m[i] := by
  rw [schedule_eq_list m 0 i (by omega) (by omega), scheduleList]
  simp [hi]

/-- A word after the block is the one the list grows by when it has that length, and its four sources are in the list
by then. -/
theorem schedule_getElem_of_ge (m : Block) (i : Nat) (h16 : 16 ≤ i) (hi : i < 64) :
    (schedule m)[i] =
      extendWord (schedule m)[i - 16] (schedule m)[i - 15] (schedule m)[i - 7] (schedule m)[i - 2] := by
  obtain ⟨n, rfl⟩ := Nat.exists_eq_add_of_le h16
  have source (j : Nat) (hj : j < 16 + n) : (schedule m)[j] = (scheduleList m n).getD j 0 :=
    schedule_eq_list m n j (by omega) hj
  have h15 : 16 + n - 15 = n + 1 := by omega
  have h7 : 16 + n - 7 = n + 9 := by omega
  have h2 : 16 + n - 2 = n + 14 := by omega
  rw [schedule_eq_list m (n + 1) (16 + n) (by omega) (by omega), scheduleList_getD_last,
    source _ (by omega), source _ (by omega), source _ (by omega), source _ (by omega),
    Nat.add_sub_cancel_left, h15, h7, h2]

/-- As a number, a schedule word is the sum of its four parts modulo 2^32. -/
theorem toNat_extendWord (w16 w15 w7 w2 : Word) :
    (extendWord w16 w15 w7 w2).toNat =
      (w16.toNat + (sigma0 w15).toNat + w7.toNat + (sigma1 w2).toNat) % 2 ^ 32 := by
  simp only [extendWord, BitVec.toNat_add, Nat.mod_add_mod]

/-- Settles O47: the list the schedule is read from begins with the block, and its next word is always `extendWord` of
four words already in it. -/
theorem scheduleRecurrence : Obligations.ScheduleRecurrence := by
  refine fun m => ⟨fun i => schedule_getElem_of_lt m i.val i.isLt, fun i h16 hi => ?_⟩
  rw [schedule_getElem_of_ge m i h16 hi, toNat_extendWord]

end Sys2Proof.Machine

namespace Sys2Proof.Machine

/-! ## Choose, majority and the round (43_compressor.md R109, R110, R114) -/

/-- The two parts of choose exclude each other, so their exclusive or selects (43_compressor.md R109). -/
theorem getLsbD_ch (e f g : Word) (k : Fin 32) :
    (ch e f g).getLsbD k = if e.getLsbD k then f.getLsbD k else g.getLsbD k := by
  have hk : (~~~e).getLsbD k = !e.getLsbD k := by simp
  rw [ch, BitVec.getLsbD_xor, BitVec.getLsbD_and, BitVec.getLsbD_and, hk]
  cases e.getLsbD k
  case false => simp
  case true => simp

/-- The exclusive or of the three pairs is 1 where at least two of three bits are. -/
theorem xor_of_pairs_eq_majority : ∀ x y z : Bool,
    ((x && y) ^^ (x && z) ^^ (y && z)) = decide (2 ≤ x.toNat + y.toNat + z.toNat) := by
  decide

/-- Each bit of majority is the value of at least two of the three bits (43_compressor.md R110). -/
theorem getLsbD_maj (a b c : Word) (k : Fin 32) :
    (maj a b c).getLsbD k =
      decide (2 ≤ (a.getLsbD k).toNat + (b.getLsbD k).toNat + (c.getLsbD k).toNat) := by
  simp only [maj, BitVec.getLsbD_xor, BitVec.getLsbD_and, xor_of_pairs_eq_majority]

/-- Settles O49: each bit of the two functions depends on the three bits at its place alone. -/
theorem chooseAndMajorityBits : Obligations.ChooseAndMajorityBits :=
  fun x y z k => ⟨getLsbD_ch x y z k, getLsbD_maj x y z k⟩

@[simp] theorem shaRound_b (s : Working) (k w : Word) : (shaRound s k w).b = s.a := rfl
@[simp] theorem shaRound_c (s : Working) (k w : Word) : (shaRound s k w).c = s.b := rfl
@[simp] theorem shaRound_d (s : Working) (k w : Word) : (shaRound s k w).d = s.c := rfl
@[simp] theorem shaRound_f (s : Working) (k w : Word) : (shaRound s k w).f = s.e := rfl
@[simp] theorem shaRound_g (s : Working) (k w : Word) : (shaRound s k w).g = s.f := rfl
@[simp] theorem shaRound_h (s : Working) (k w : Word) : (shaRound s k w).h = s.g := rfl

/-- The new A as a number (43_compressor.md R114). -/
theorem toNat_shaRound_a (s : Working) (k w : Word) :
    (shaRound s k w).a.toNat =
      (s.h.toNat + (bigSigma1 s.e).toNat + (ch s.e s.f s.g).toNat + w.toNat + k.toNat + (bigSigma0 s.a).toNat
        + (maj s.a s.b s.c).toNat) % 2 ^ 32 := by
  simp only [shaRound, BitVec.toNat_add, Nat.mod_add_mod]

/-- The new E as a number (43_compressor.md R114). -/
theorem toNat_shaRound_e (s : Working) (k w : Word) :
    (shaRound s k w).e.toNat =
      (s.d.toNat + (s.h.toNat + (bigSigma1 s.e).toNat + (ch s.e s.f s.g).toNat + w.toNat + k.toNat)) % 2 ^ 32 := by
  simp only [shaRound, BitVec.toNat_add, Nat.mod_add_mod, Nat.add_mod_mod]

/-- Settles O46: word addition is addition modulo 2^32, and the six shifted words are copied from the old state. -/
theorem roundIsSumsAndRotation : Obligations.RoundIsSumsAndRotation :=
  fun s k w => ⟨toNat_shaRound_a s k w, toNat_shaRound_e s k w, shaRound_b s k w, shaRound_c s k w, shaRound_d s k w,
    shaRound_f s k w, shaRound_g s k w, shaRound_h s k w⟩

end Sys2Proof.Machine

namespace Sys2Proof.Machine

/-! ## The round step (43_compressor.md R115, 42_scheduler.md R104) -/

/-- The round counter has seven bits, so counting up from a round below 64 does not wrap. -/
theorem toNat_add_one_of_round {t : BitVec 7} (ht : t.toNat < 64) : (t + 1).toNat = t.toNat + 1 := by
  rw [BitVec.toNat_add_of_lt (by simp; omega)]
  rfl

/-- A round below 16 leaves the schedule as START loaded it. -/
theorem State.afterRound_early (s : State) (r : Fin 64) (hr : r.val < 16) (st : Working) (wt : Word) :
    s.afterRound r st wt = { s with work := some (shaRound st kRom[r] wt), t := s.t + 1 } := by
  rw [State.afterRound, if_neg (by omega)]

/-- A round from 16 on sets W[r]. -/
theorem State.afterRound_late (s : State) (r : Fin 64) (hr : 16 ≤ r.val) (st : Working) (wt : Word) :
    s.afterRound r st wt =
      { s with work := some (shaRound st kRom[r] wt), w := s.w.set r.val (some wt) r.isLt, t := s.t + 1 } := by
  rw [State.afterRound, if_pos hr]

/-- Setting one schedule word keeps every other (42_scheduler.md R104). -/
theorem getElem_setScheduleWord (w : Vector (Option Word) 64) (r : Nat) (hr : r < 64) (x : Option Word) (i : Fin 64) :
    (w.set r x hr)[i] = if i.val = r then x else w[i] := by
  rw [Fin.getElem_fin, Vector.getElem_set]
  exact if_congr eq_comm rfl rfl

/-- Settles O44: below round 16 the word of the round is W[t] and the schedule stays; from 16 on it is `extendWord` of
the four old source words, and W[t] alone is set to it. -/
theorem roundStepRunsOneRound : Obligations.RoundStepRunsOneRound := by
  refine ⟨fun s st wt h hb hst hwt => ?early, fun s st a b c d h16 h hb hst hsrc16 hsrc15 hsrc7 hsrc2 => ?late⟩
  case early =>
    have hr : s.t.toNat < 64 := by omega
    have hword : s.roundWord ⟨s.t.toNat, hr⟩ = some wt := (s.roundWord_early ⟨s.t.toNat, hr⟩ h).trans hwt
    refine ⟨?_, toNat_add_one_of_round hr⟩
    rw [coreStep_of_round hr hb hst hword, s.afterRound_early ⟨s.t.toNat, hr⟩ h]
    rfl
  case late =>
    have hword : s.roundWord ⟨s.t.toNat, h⟩ = some (extendWord a b c d) :=
      s.roundWord_of_sources ⟨s.t.toNat, h⟩ h16 hsrc16 hsrc15 hsrc7 hsrc2
    refine ⟨s.w.set s.t.toNat (some (extendWord a b c d)) h, ?_, getElem_setScheduleWord s.w s.t.toNat h _,
      toNat_add_one_of_round h⟩
    rw [coreStep_of_round h hb hst hword, s.afterRound_late ⟨s.t.toNat, h⟩ h16]
    rfl

end Sys2Proof.Machine

namespace Sys2Proof.Machine

/-! ## The bytes of a digest word (44_accumulator_serializer.md R129, 20_memory.md R47) -/

/-- The four bytes of a word, most significant first, are adjacent bit fields that join to the whole word. -/
theorem wordByte_append (x : Word) : wordByte x 0 ++ wordByte x 1 ++ wordByte x 2 ++ wordByte x 3 = x := by
  have join (start n : Nat) : x.extractLsb' (start + 8) n ++ x.extractLsb' start 8 = x.extractLsb' start (n + 8) :=
    BitVec.extractLsb'_append_extractLsb'_eq_extractLsb' rfl
  have upper16 : wordByte x 0 ++ wordByte x 1 = x.extractLsb' 16 16 := join 16 8
  have upper24 : x.extractLsb' 16 16 ++ wordByte x 2 = x.extractLsb' 8 24 := join 8 16
  have whole : x.extractLsb' 8 24 ++ wordByte x 3 = x.extractLsb' 0 32 := join 0 24
  rw [upper16, upper24, whole, BitVec.extractLsb'_eq_self]

/-- Byte 4j+k of the serialised digest is byte k of word j. -/
theorem serialize_getElem_word (h : Digest) (j : Fin 8) (k : Fin 4) :
    (serialize h)[4 * j.val + k.val] = wordByte h[j] k := by
  have hword : digestWordIndex (BitVec.ofNat 5 (4 * j.val + k.val)) = j := by
    apply Fin.ext
    simp only [digestWordIndex, BitVec.toNat_ofNat]
    omega
  have hlane : laneIndex (BitVec.ofNat 5 (4 * j.val + k.val)) = k := by
    apply Fin.ext
    simp only [laneIndex, BitVec.toNat_ofNat]
    omega
  simp only [serialize_getElem, digestByte, hword, hlane]

/-- The digest byte at a pointer is the byte of the serialised digest at its value. -/
theorem digestByte_eq_serialize (h : Digest) (p : BitVec 5) : digestByte h p = (serialize h)[p.toNat] := by
  rw [serialize_getElem, BitVec.ofNat_toNat, BitVec.setWidth_eq]

/-- Settles O51: byte 4j+k lies in word j at lane k, and the four lanes of a word join to it. -/
theorem serializeIsBigEndian : Obligations.SerializeIsBigEndian := by
  intro h j
  have hbyte : ∀ k : Fin 4, (serialize h)[4 * j.val + k.val] = wordByte h[j] k := serialize_getElem_word h j
  have hbyte0 : (serialize h)[4 * j.val] = wordByte h[j] 0 := hbyte 0
  have hbyte1 : (serialize h)[4 * j.val + 1] = wordByte h[j] 1 := hbyte 1
  have hbyte2 : (serialize h)[4 * j.val + 2] = wordByte h[j] 2 := hbyte 2
  have hbyte3 : (serialize h)[4 * j.val + 3] = wordByte h[j] 3 := hbyte 3
  refine ⟨hbyte, ?_⟩
  rw [hbyte0, hbyte1, hbyte2, hbyte3]
  exact wordByte_append h[j]

/-! ## Reads of DIGEST and DOUT (44_accumulator_serializer.md R130, R131) -/

/-- A read's data word has no meaning: two reads with one descriptor decode alike (30_encoding.md R62). -/
theorem decode_read_congr {d : BitVec 11} (hread : d.getLsbD 10 = false) (x y : Word) :
    decode ⟨d, x⟩ = decode ⟨d, y⟩ := by
  have hdir : (⟨d, x⟩ : Access).dir = (⟨d, y⟩ : Access).dir := by
    simp only [Access.dir, Access.isWrite, hread, Bool.false_eq_true, if_false]
  unfold decode
  rw [hdir]
  rfl

/-- The descriptors of the DIGEST window, 0x280 to 0x29C, are reads of its eight words. -/
theorem decode_rdDigest (j : Fin 8) (x : Word) : decode ⟨BitVec.ofNat 11 (0x280 + 4 * j.val), x⟩ = .rdDigest j := by
  have hread : ∀ j : Fin 8, (BitVec.ofNat 11 (0x280 + 4 * j.val)).getLsbD 10 = false := by decide
  have hzero : ∀ j : Fin 8, decode ⟨BitVec.ofNat 11 (0x280 + 4 * j.val), 0⟩ = .rdDigest j := by decide
  exact (decode_read_congr (hread j) x 0).trans (hzero j)

/-- The descriptor 0x210 is a read of DOUT. -/
theorem decode_rdDout (x : Word) : decode ⟨0x210#11, x⟩ = .rdDout :=
  (decode_read_congr (by decide) x 0).trans (by decide)

/-- A refused read, in the terms the statements use. -/
theorem State.refuse_read_eq (s : State) (e : AccessError) : s.refuse .read e = refusedRead s e.code :=
  s.refuse_eq .read e

theorem exec_rdDigest_of_idle {s : State} (hidle : s.busy = false) (j : Fin 8) :
    exec (.rdDigest j) s = .next (s.returnRead s.hs[j]) := by
  simp [exec, execRdDigest, hidle]

theorem exec_rdDigest_of_busy {s : State} (hbusy : s.busy = true) (j : Fin 8) :
    exec (.rdDigest j) s = .next (refusedRead s AccessError.busyAccess.code) := by
  simp only [exec, execRdDigest, if_pos hbusy, State.refuse_read_eq]

theorem exec_rdDout_of_idle {s : State} (hidle : s.busy = false) : exec .rdDout s = .next s.readDoutByte := by
  simp [exec, execRdDout, hidle]

theorem exec_rdDout_of_busy {s : State} (hbusy : s.busy = true) :
    exec .rdDout s = .next (refusedRead s AccessError.busyAccess.code) := by
  simp only [exec, execRdDout, if_pos hbusy, State.refuse_read_eq]

/-- Settles O18: BUSY alone decides whether the word is returned, and its bytes are those of the serialised digest. -/
theorem digestReadReturnsWord : Obligations.DigestReadReturnsWord :=
  fun j x => ⟨fun _ hidle => exec_rdDigest_of_idle hidle j, fun _ hbusy => exec_rdDigest_of_busy hbusy j,
    fun s k => (serialize_getElem_word s.hs j k).symm, decode_rdDigest j x⟩

/-- A byte returned as a word stands in bits 7:0. -/
theorem extractLsb'_low_setWidth (v : Byte) : (v.setWidth 32).extractLsb' 0 8 = v :=
  (BitVec.extractLsb'_setWidth_of_le (by decide)).trans BitVec.extractLsb'_eq_self

/-- A byte returned as a word leaves bits 31:8 at 0. -/
theorem extractLsb'_high_setWidth (v : Byte) : (v.setWidth 32).extractLsb' 8 24 = 0 := by
  ext i hi
  simp

/-- Settles O19: the byte is zero-extended, and the five bits of DOUTPTR count modulo 32. -/
theorem doutReadReturnsNextByte : Obligations.DoutReadReturnsNextByte := by
  refine ⟨fun s hidle => ?_, fun _ hbusy => exec_rdDout_of_busy hbusy, decode_rdDout⟩
  refine ⟨(digestByte s.hs s.doutptr).setWidth 32, s.doutptr + 1, exec_rdDout_of_idle hidle, ?_,
    extractLsb'_high_setWidth _, BitVec.toNat_add s.doutptr 1⟩
  rw [extractLsb'_low_setWidth, digestByte_eq_serialize]

end Sys2Proof.Machine

namespace Sys2Proof.Machine

/-! ## The accumulate step (44_accumulator_serializer.md R127) -/

/-- Each word of `addWorking` is a sum of the naturals modulo 2^32, A into word 0 and so on up to H into word 7. -/
theorem toNat_addWorking (h : Digest) (st : Working) :
    (addWorking h st)[0].toNat = (h[0].toNat + st.a.toNat) % 2 ^ 32 ∧
    (addWorking h st)[1].toNat = (h[1].toNat + st.b.toNat) % 2 ^ 32 ∧
    (addWorking h st)[2].toNat = (h[2].toNat + st.c.toNat) % 2 ^ 32 ∧
    (addWorking h st)[3].toNat = (h[3].toNat + st.d.toNat) % 2 ^ 32 ∧
    (addWorking h st)[4].toNat = (h[4].toNat + st.e.toNat) % 2 ^ 32 ∧
    (addWorking h st)[5].toNat = (h[5].toNat + st.f.toNat) % 2 ^ 32 ∧
    (addWorking h st)[6].toNat = (h[6].toNat + st.g.toNat) % 2 ^ 32 ∧
    (addWorking h st)[7].toNat = (h[7].toNat + st.h.toNat) % 2 ^ 32 :=
  ⟨BitVec.toNat_add _ _, BitVec.toNat_add _ _, BitVec.toNat_add _ _, BitVec.toNat_add _ _,
    BitVec.toNat_add _ _, BitVec.toNat_add _ _, BitVec.toNat_add _ _, BitVec.toNat_add _ _⟩

/-- Settles O45: at t = 64 CORE's turn is the accumulate step, which writes Hs, BUSY and VALID alone. -/
theorem accumulateStepAddsWords : Obligations.AccumulateStepAddsWords :=
  fun s st hbusy ht hwork =>
    ⟨addWorking s.hs st, coreStep_of_accumulate ht hbusy hwork, toNat_addWorking s.hs st⟩

end Sys2Proof.Machine

namespace Sys2Proof.Machine

/-! ## Accesses to illegal offsets and sizes (45_host_access.md R146 to R148) -/

/-- A refused access leaves what the statements call refused. -/
theorem next_refuse_eq (s : State) (dir : Dir) (e : AccessError) :
    (.next (s.refuse dir e) : Host.Outcome State Fault Refusal) = .next (refusedAccess s dir e.code) :=
  congrArg _ (s.refuse_eq dir e)

/-- Each of the five rows of reserved offsets refuses its access, whatever its free bits are. -/
theorem exec_decodeReserved (s : State) (dir : Dir) (off : BitVec 8) :
    exec (decodeReserved dir off) s = .next (refusedAccess s dir AccessError.reservedOffset.code) := by
  unfold decodeReserved
  split_ifs <;> exact next_refuse_eq s dir .reservedOffset

/-- An aligned word access is decoded by its direction and its offset alone (30_encoding.md R66). -/
theorem decode_of_word_aligned {a : Access} (hsize : a.size = 0b10#2) (halign : a.off.extractLsb' 0 2 = 0b00#2) :
    decode a = decodeAligned a.dir a.off := by
  simp [decode, hsize, halign]

/-- The reserved offsets are outside the five registers, the MSG window and the DIGEST window (30_encoding.md R66). -/
theorem decodeAligned_of_reserved (dir : Dir) {off : BitVec 8}
    (hoff : (0x14#8 ≤ off ∧ off ≤ 0x3C#8) ∨ (0xA0#8 ≤ off ∧ off ≤ 0xFC#8)) :
    decodeAligned dir off = decodeReserved dir off := by
  have hctrl : off ≠ 0x00#8 := by bv_omega
  have hstatus : off ≠ 0x04#8 := by bv_omega
  have hptr : off ≠ 0x08#8 := by bv_omega
  have hdin : off ≠ 0x0C#8 := by bv_omega
  have hdout : off ≠ 0x10#8 := by bv_omega
  have hmsg : ¬ (0x40#8 ≤ off ∧ off ≤ 0x7C#8) := by bv_omega
  have hdigest : ¬ (0x80#8 ≤ off ∧ off ≤ 0x9C#8) := by bv_omega
  cases dir with
  | read =>
    rw [decodeAligned, decodeRead, if_neg hctrl, if_neg hstatus, if_neg hptr, if_neg hdin, if_neg hdout, if_neg hmsg,
      if_neg hdigest]
  | write wdata =>
    rw [decodeAligned, decodeWrite, if_neg hctrl, if_neg hstatus, if_neg hptr, if_neg hdin, if_neg hdout, if_neg hmsg,
      if_neg hdigest]

/-- Settles O32: a reserved offset is none of a register's, and every row that is left refuses its access. -/
theorem reservedOffsetsRefused : Obligations.ReservedOffsetsRefused := by
  refine ⟨fun s dir => ?rows, fun s a hsize halign hoff => ?access⟩
  case rows =>
    have refused := next_refuse_eq s dir .reservedOffset
    exact ⟨refused, fun _ => refused, fun _ => refused, fun _ => refused, fun _ => refused⟩
  case access =>
    rw [decode_of_word_aligned hsize halign, decodeAligned_of_reserved a.dir hoff]
    exact exec_decodeReserved s a.dir a.off

/-- Settles O33: both parities of a misaligned offset are rows that refuse, so no access is rounded down. -/
theorem misalignedRefused : Obligations.MisalignedRefused := by
  refine ⟨fun s dir => ⟨fun _ => next_refuse_eq s dir .misaligned, fun _ => next_refuse_eq s dir .misaligned⟩,
    fun s a hsize hmis => ?_⟩
  rw [decode, if_neg (not_not.mpr hsize), if_pos hmis]
  split
  case isTrue => exact next_refuse_eq s a.dir .misaligned
  case isFalse => exact next_refuse_eq s a.dir .misaligned

/-- Settles O34: the size is checked before the offset is looked at. -/
theorem badsizeRefused : Obligations.BadsizeRefused := by
  refine ⟨fun s dir => ⟨fun _ _ => next_refuse_eq s dir .badSize, fun _ => next_refuse_eq s dir .badSize⟩,
    fun s a hsize => ?_⟩
  rw [decode, if_pos hsize]
  split
  case isTrue => exact next_refuse_eq s a.dir .badSize
  case isFalse => exact next_refuse_eq s a.dir .badSize

end Sys2Proof.Machine

namespace Sys2Proof.Machine

/-! ## Descriptors of word writes (30_encoding.md R67) -/

/-- A write whose descriptor has the word size and an aligned offset is decoded by that offset. -/
theorem decode_write_word {d : BitVec 11} {off : BitVec 8} (hd : d = descriptor true 0b10#2 off)
    (halign : off.extractLsb' 0 2 = 0b00#2) (wdata : Word) : decode ⟨d, wdata⟩ = decodeWrite wdata off := by
  subst hd
  have checks := decode_accessTo (.write wdata) 0b10#2 off
  rwa [if_neg (not_not.mpr rfl), if_neg (not_not.mpr halign)] at checks

/-- The descriptors of the MSG window, 0x640 to 0x67C, are writes to its sixteen words. -/
theorem decode_wrMsg (i : Fin 16) (wdata : Word) :
    decode ⟨BitVec.ofNat 11 (0x640 + 4 * i.val), wdata⟩ = .wrMsg i wdata := by
  have hd : ∀ i : Fin 16, BitVec.ofNat 11 (0x640 + 4 * i.val) =
      descriptor true 0b10#2 (BitVec.ofNat 8 (0x40 + 4 * i.val)) := by decide
  have halign : ∀ i : Fin 16, (BitVec.ofNat 8 (0x40 + 4 * i.val)).extractLsb' 0 2 = 0b00#2 := by decide
  rw [decode_write_word (hd i) (halign i)]
  fin_cases i <;> rfl

/-- The descriptors of the DIGEST window, 0x680 to 0x69C, are writes to its eight words. -/
theorem decode_wrDigest (j : Fin 8) (wdata : Word) :
    decode ⟨BitVec.ofNat 11 (0x680 + 4 * j.val), wdata⟩ = .wrDigest j wdata := by
  have hd : ∀ j : Fin 8, BitVec.ofNat 11 (0x680 + 4 * j.val) =
      descriptor true 0b10#2 (BitVec.ofNat 8 (0x80 + 4 * j.val)) := by decide
  have halign : ∀ j : Fin 8, (BitVec.ofNat 8 (0x80 + 4 * j.val)).extractLsb' 0 2 = 0b00#2 := by decide
  rw [decode_write_word (hd j) (halign j)]
  fin_cases j <;> rfl

/-- The descriptor 0x60C is a write to DIN. -/
theorem decode_wrDin (wdata : Word) : decode ⟨0x60C#11, wdata⟩ = .wrDin wdata :=
  decode_write_word (off := 0x0C#8) (by decide) (by decide) wdata

/-! ## Writes to read-only registers (45_host_access.md R145) -/

/-- Settles O31: the meaning of each of these writes is the refusal with code 4, which looks neither at the data nor at
BUSY. -/
theorem readOnlyWritesRefused : Obligations.ReadOnlyWritesRefused := by
  refine ⟨fun s wdata => ?meaning, fun wdata => ⟨?status, ?ptr, ?dout, fun j => decode_wrDigest j wdata⟩⟩
  case meaning =>
    have refused := next_refuse_eq s (.write wdata) .readOnlyWrite
    exact ⟨refused, refused, refused, fun _ => refused⟩
  case status => exact decode_write_word (off := 0x04#8) (by decide) (by decide) wdata
  case ptr => exact decode_write_word (off := 0x08#8) (by decide) (by decide) wdata
  case dout => exact decode_write_word (off := 0x10#8) (by decide) (by decide) wdata

/-! ## Writes of message words and bytes (45_host_access.md R140, R144) -/

theorem exec_wrMsg_of_busy {s : State} (hbusy : s.busy = true) (i : Fin 16) (wdata : Word) :
    exec (.wrMsg i wdata) s = .next (refusedWrite s AccessError.busyAccess.code) := by
  simp only [exec, execWrMsg, if_pos hbusy, State.refuse_write_eq]

/-- Settles O21: an idle write sets one element of MSG, and BUSY refuses it. -/
theorem msgWriteSetsWord : Obligations.MsgWriteSetsWord := by
  refine fun i wdata => ⟨fun s hidle => ?_, fun _ hbusy => exec_wrMsg_of_busy hbusy i wdata, decode_wrMsg i wdata⟩
  exact ⟨s.msg.set i.val wdata i.isLt, exec_wrMsg_of_idle hidle i wdata, fun k => block_getElem_set s.msg i k wdata⟩

theorem exec_wrDin_of_busy {s : State} {wdata : Word} (hres : dinReserved wdata = 0) (hbusy : s.busy = true) :
    exec (.wrDin wdata) s = .next (refusedWrite s AccessError.busyAccess.code) := by
  simp only [exec, execWrDin, if_neg (not_not.mpr hres), if_pos hbusy, State.refuse_write_eq]

theorem exec_wrDin_of_idle {s : State} {wdata : Word} (hres : dinReserved wdata = 0) (hidle : s.busy = false) :
    exec (.wrDin wdata) s = .next (s.storeDinByte (dinByte wdata)) := by
  simp [exec, execWrDin, hres, hidle]

/-- Block byte 4q+k is byte k of word q (20_memory.md R47). -/
theorem blockByte_ofNat_word (m : Block) (q : Fin 16) (k : Fin 4) :
    blockByte m (BitVec.ofNat 6 (4 * q.val + k.val)) = wordByte m[q] k := by
  have hword : blockWordIndex (BitVec.ofNat 6 (4 * q.val + k.val)) = q := by
    apply Fin.ext
    simp only [blockWordIndex, BitVec.toNat_ofNat]
    omega
  have hlane : laneIndex (BitVec.ofNat 6 (4 * q.val + k.val)) = k := by
    apply Fin.ext
    simp only [laneIndex, BitVec.toNat_ofNat]
    omega
  simp only [blockByte, hword, hlane]

/-- The byte that a pointer below 64 names is the one with its number. -/
theorem ofNat_word_lane_eq_iff (q : Fin 16) (k : Fin 4) (p : BitVec 6) :
    BitVec.ofNat 6 (4 * q.val + k.val) = p ↔ 4 * q.val + k.val = p.toNat := by
  rw [← BitVec.toNat_inj, BitVec.toNat_ofNat, Nat.mod_eq_of_lt (by omega)]

/-- Setting block byte p sets the lane that holds it, in the word that holds it, and no other lane of any word. -/
theorem wordByte_setBlockByte (m : Block) (p : BitVec 6) (v : Byte) (q : Fin 16) (k : Fin 4) :
    wordByte (setBlockByte m p v)[q] k = if 4 * q.val + k.val = p.toNat then v else wordByte m[q] k := by
  rw [← blockByte_ofNat_word, blockByte_setBlockByte, blockByte_ofNat_word]
  exact if_congr (ofNat_word_lane_eq_iff q k p) rfl rfl

/-- Settles O22: the reserved bits are checked before BUSY, the block is seen lane by lane, and the six bits of DINPTR
count modulo 64. -/
theorem dinWriteSetsByte : Obligations.DinWriteSetsByte := by
  refine fun wdata => ⟨fun s hres => exec_wrDin_of_reserved s hres, fun s hres hbusy => exec_wrDin_of_busy hres hbusy,
    fun s hres hidle => ?_, decode_wrDin wdata⟩
  exact ⟨setBlockByte s.msg s.dinptr (dinByte wdata), s.dinptr + 1, exec_wrDin_of_idle hres hidle,
    wordByte_setBlockByte s.msg s.dinptr (dinByte wdata), BitVec.toNat_add s.dinptr 1⟩

end Sys2Proof.Machine

namespace Sys2Proof.Machine

/-! ## Reads that BUSY does not refuse (45_host_access.md R138, R139, R141 to R143) -/

/-- Settles O14: both reads return 0, and `returnRead` changes nothing but what the host has read. -/
theorem ctrlAndDinReadZero : Obligations.CtrlAndDinReadZero := by
  refine ⟨fun s => ⟨rfl, rfl⟩, fun x => ⟨?ctrl, ?din⟩⟩
  case ctrl => exact (decode_read_congr (by decide) x 0).trans (by decide)
  case din => exact (decode_read_congr (by decide) x 0).trans (by decide)

/-- The descriptors of the MSG window, 0x240 to 0x27C, are reads of its sixteen words. -/
theorem decode_rdMsg (i : Fin 16) (x : Word) : decode ⟨BitVec.ofNat 11 (0x240 + 4 * i.val), x⟩ = .rdMsg i := by
  have hread : ∀ i : Fin 16, (BitVec.ofNat 11 (0x240 + 4 * i.val)).getLsbD 10 = false := by decide
  have hzero : ∀ i : Fin 16, decode ⟨BitVec.ofNat 11 (0x240 + 4 * i.val), 0⟩ = .rdMsg i := by decide
  exact (decode_read_congr (hread i) x 0).trans (hzero i)

/-- Reset leaves every message word 0 (10_state.md R41). -/
theorem State.reset_msg_getElem (i : Fin 16) : State.reset.msg[i] = 0x00000000#32 :=
  Vector.getElem_replicate i.isLt

/-- Settles O17: `execRdMsg` returns the word at the index and asks neither for BUSY nor for VALID. -/
theorem msgReadReturnsWord : Obligations.MsgReadReturnsWord :=
  fun i x => ⟨fun _ => rfl, State.reset_msg_getElem i, decode_rdMsg i x⟩

/-! ### The fields of STATUS and PTR (10_state.md R32, R33)

Each is reached by dropping the fields below it and cutting off those above it. -/

/-- Zero extension leaves every bit above the old width at 0. -/
theorem extractLsb'_setWidth_above {n w start len : Nat} (x : BitVec n) (h : n ≤ start) :
    (x.setWidth w).extractLsb' start len = 0 := by
  ext i hi
  rw [BitVec.getElem_extractLsb', BitVec.getLsbD_setWidth, BitVec.getLsbD_of_ge x _ (by omega)]
  simp

/-- BUSY, VALID and ERR are the three lowest bits of STATUS. -/
theorem State.statusWord_flags (s : State) :
    s.statusWord.getLsbD 0 = s.busy ∧ s.statusWord.getLsbD 1 = s.valid ∧ s.statusWord.getLsbD 2 = s.err := by
  simp only [State.statusWord, BitVec.getLsbD_setWidth, BitVec.getLsbD_append, BitVec.getLsbD_ofBool]
  simp

theorem State.statusWord_errcode (s : State) : s.statusWord.extractLsb' 8 4 = s.errcode := by
  simp (disch := decide) only [State.statusWord, BitVec.extractLsb'_setWidth_of_le, BitVec.extractLsb'_append_eq_of_le,
    BitVec.extractLsb'_append_eq_right, Nat.reduceSub]

theorem State.statusWord_t (s : State) : s.statusWord.extractLsb' 16 7 = s.t := by
  simp (disch := decide) only [State.statusWord, BitVec.extractLsb'_setWidth_of_le, BitVec.extractLsb'_append_eq_of_le,
    BitVec.extractLsb'_eq_self, Nat.reduceSub]

/-- The bits of STATUS between its fields are 0. -/
theorem State.statusWord_gaps (s : State) :
    s.statusWord.extractLsb' 3 5 = 0 ∧ s.statusWord.extractLsb' 12 4 = 0 ∧ s.statusWord.extractLsb' 23 9 = 0 := by
  refine ⟨?_, ?_, extractLsb'_setWidth_above _ (by decide)⟩ <;>
    simp (disch := decide) only [State.statusWord, BitVec.extractLsb'_setWidth_of_le,
      BitVec.extractLsb'_append_eq_of_le, BitVec.extractLsb'_append_eq_right, Nat.reduceSub, BitVec.ofNat_eq_ofNat]

/-- The descriptor 0x204 is a read of STATUS. -/
theorem decode_rdStatus (x : Word) : decode ⟨0x204#11, x⟩ = .rdStatus :=
  (decode_read_congr (by decide) x 0).trans (by decide)

/-- Settles O15: the read returns `statusWord`, whose five fields and three gaps cover its 32 bits. -/
theorem statusReadLayout : Obligations.StatusReadLayout := by
  refine ⟨fun s => ⟨s.statusWord, rfl, ?layout⟩, decode_rdStatus⟩
  obtain ⟨hbusy, hvalid, herr⟩ := s.statusWord_flags
  obtain ⟨hgap3, hgap12, hgap23⟩ := s.statusWord_gaps
  exact ⟨hbusy, hvalid, herr, hgap3, s.statusWord_errcode, hgap12, s.statusWord_t, hgap23⟩

theorem State.ptrWord_dinptr (s : State) : s.ptrWord.extractLsb' 0 6 = s.dinptr := by
  rw [State.ptrWord, BitVec.extractLsb'_setWidth_of_le (by decide), BitVec.extractLsb'_append_eq_right]

theorem State.ptrWord_doutptr (s : State) : s.ptrWord.extractLsb' 8 5 = s.doutptr := by
  simp (disch := decide) only [State.ptrWord, BitVec.extractLsb'_setWidth_of_le, BitVec.extractLsb'_append_eq_of_le,
    BitVec.extractLsb'_eq_self, Nat.reduceSub]

/-- The bits of PTR beside its pointers are 0. -/
theorem State.ptrWord_gaps (s : State) : s.ptrWord.extractLsb' 6 2 = 0 ∧ s.ptrWord.extractLsb' 13 19 = 0 := by
  refine ⟨?_, extractLsb'_setWidth_above _ (by decide)⟩
  simp (disch := decide) only [State.ptrWord, BitVec.extractLsb'_setWidth_of_le, BitVec.extractLsb'_append_eq_of_le,
    BitVec.extractLsb'_append_eq_right, Nat.reduceSub, BitVec.ofNat_eq_ofNat]

/-- The descriptor 0x208 is a read of PTR. -/
theorem decode_rdPtr (x : Word) : decode ⟨0x208#11, x⟩ = .rdPtr :=
  (decode_read_congr (by decide) x 0).trans (by decide)

/-- Settles O16: the read returns `ptrWord`, whose two pointers and two gaps cover its 32 bits. -/
theorem ptrReadLayout : Obligations.PtrReadLayout := by
  refine ⟨fun s => ⟨s.ptrWord, rfl, ?layout⟩, decode_rdPtr⟩
  obtain ⟨hgap6, hgap13⟩ := s.ptrWord_gaps
  exact ⟨s.ptrWord_dinptr, hgap6, s.ptrWord_doutptr, hgap13⟩

end Sys2Proof.Machine

namespace Sys2Proof.Machine

/-! ## CTRL writes while BUSY = 1 (45_host_access.md R137) -/

theorem exec_wrCtrl_of_busy {s : State} {wdata : Word} (hres : ctrlReserved wdata = 0) (hbusy : s.busy = true)
    (hcmd : ctrlInit wdata = true ∨ ctrlStart wdata = true) :
    exec (.wrCtrl wdata) s = .next (refusedWrite s AccessError.busyAccess.code) := by
  simp only [exec, execWrCtrl, if_neg (not_not.mpr hres), if_pos (And.intro hbusy hcmd), State.refuse_write_eq]

/-- A CTRL write without INIT and START is accepted, BUSY or not. -/
theorem exec_wrCtrl_of_no_command (s : State) {wdata : Word} (hres : ctrlReserved wdata = 0)
    (hinit : ctrlInit wdata = false) (hstart : ctrlStart wdata = false) :
    exec (.wrCtrl wdata) s = .next (s.runCommands wdata) := by
  simp [exec, execWrCtrl, hres, hinit, hstart]

/-- Settles O30: the refused accesses fail the check of BUSY, and the others do not make it. -/
theorem busyRefusesTheseOnly : Obligations.BusyRefusesTheseOnly := by
  refine fun s hbusy => ⟨fun _ hres hcmd => exec_wrCtrl_of_busy hres hbusy hcmd, exec_wrMsg_of_busy hbusy,
    fun _ hres => exec_wrDin_of_busy hres hbusy, exec_rdDigest_of_busy hbusy, exec_rdDout_of_busy hbusy,
    ?reads, fun _ => rfl, ?clrerr, ?nothing⟩
  case reads =>
    simp only [List.forall_mem_cons]
    exact ⟨⟨s.statusWord, rfl⟩, ⟨s.ptrWord, rfl⟩, ⟨0, rfl⟩, ⟨0, rfl⟩, List.forall_mem_nil _⟩
  case clrerr => exact exec_wrCtrl_of_no_command s (by decide) (by decide) (by decide)
  case nothing => exact exec_wrCtrl_of_no_command s (by decide) (by decide) (by decide)

/-! ## The causes of an aligned word access (60_exceptions.md R162, R168) -/

/-- The five single registers lie below the MSG window (30_encoding.md R66). -/
theorem off_ne_register_of_ge {off : BitVec 8} (h : 0x40#8 ≤ off) :
    off ≠ 0x00#8 ∧ off ≠ 0x04#8 ∧ off ≠ 0x08#8 ∧ off ≠ 0x0C#8 ∧ off ≠ 0x10#8 := by
  refine ⟨?_, ?_, ?_, ?_, ?_⟩ <;> bv_omega

theorem decodeWrite_of_msg (wdata : Word) {off : BitVec 8} (hoff : 0x40#8 ≤ off ∧ off ≤ 0x7C#8) :
    decodeWrite wdata off = .wrMsg (off.extractLsb' 2 4).toFin wdata := by
  obtain ⟨hctrl, hstatus, hptr, hdin, hdout⟩ := off_ne_register_of_ge hoff.1
  rw [decodeWrite, if_neg hctrl, if_neg hstatus, if_neg hptr, if_neg hdin, if_neg hdout, if_pos hoff]

theorem decodeWrite_of_digest (wdata : Word) {off : BitVec 8} (hoff : 0x80#8 ≤ off ∧ off ≤ 0x9C#8) :
    decodeWrite wdata off = .wrDigest (off.extractLsb' 2 3).toFin wdata := by
  obtain ⟨hctrl, hstatus, hptr, hdin, hdout⟩ := off_ne_register_of_ge (BitVec.le_trans (by decide) hoff.1)
  have hmsg : ¬ (0x40#8 ≤ off ∧ off ≤ 0x7C#8) := by bv_omega
  rw [decodeWrite, if_neg hctrl, if_neg hstatus, if_neg hptr, if_neg hdin, if_neg hdout, if_neg hmsg, if_pos hoff]

theorem decodeRead_of_digest {off : BitVec 8} (hoff : 0x80#8 ≤ off ∧ off ≤ 0x9C#8) :
    decodeRead off = .rdDigest (off.extractLsb' 2 3).toFin := by
  obtain ⟨hctrl, hstatus, hptr, hdin, hdout⟩ := off_ne_register_of_ge (BitVec.le_trans (by decide) hoff.1)
  have hmsg : ¬ (0x40#8 ≤ off ∧ off ≤ 0x7C#8) := by bv_omega
  rw [decodeRead, if_neg hctrl, if_neg hstatus, if_neg hptr, if_neg hdin, if_neg hdout, if_neg hmsg, if_pos hoff]

/-- Below the alignment check, the range of code 3 is the reserved offsets 0x14..0x3C and 0xA0..0xFC. -/
theorem reservedOffset_of_inReservedRange {off : BitVec 8} (halign : off.extractLsb' 0 2 = 0b00#2)
    (h : inReservedRange off) : (0x14#8 ≤ off ∧ off ≤ 0x3C#8) ∨ (0xA0#8 ≤ off ∧ off ≤ 0xFC#8) := by
  have hmod : off.toNat % 4 = 0 := by simpa using congrArg BitVec.toNat halign
  unfold inReservedRange at h
  bv_omega

theorem exec_decodeWrite_of_isReadOnly (s : State) (wdata : Word) {off : BitVec 8} (h : isReadOnly off) :
    exec (decodeWrite wdata off) s = .next (refusedWrite s AccessError.readOnlyWrite.code) := by
  obtain ⟨hstatus, hptr, hdout, hdigest⟩ := readOnlyWritesRefused.1 s wdata
  obtain rfl | rfl | rfl | hoff := h
  · exact hstatus
  · exact hptr
  · exact hdout
  · rw [decodeWrite_of_digest wdata hoff]
    exact hdigest _

theorem exec_decodeWrite_of_setsReservedBits (s : State) {a : Access} (h : setsReservedBits a) :
    exec (decodeWrite a.wdata a.off) s = .next (refusedWrite s AccessError.reservedBits.code) := by
  obtain ⟨hoff, hres⟩ | ⟨hoff, hres⟩ := h <;> rw [hoff]
  · exact exec_wrCtrl_of_reserved s hres
  · exact exec_wrDin_of_reserved s hres

/-- The writes that BUSY refuses, once their reserved bits are 0. -/
theorem exec_decodeWrite_of_touchesBlock {s : State} {a : Access} (hbusy : s.busy = true) (hwrite : a.isWrite = true)
    (hres : ¬ setsReservedBits a) (h : touchesBlock a) :
    exec (decodeWrite a.wdata a.off) s = .next (refusedWrite s AccessError.busyAccess.code) := by
  obtain ⟨-, hoff⟩ | ⟨hread, -⟩ := h
  case inr => simp [hwrite] at hread
  obtain ⟨hoff, hcmd⟩ | hoff | hoff := hoff
  · have hctrl : ctrlReserved a.wdata = 0 := not_not.mp fun hne => hres (.inl ⟨hoff, hne⟩)
    rw [hoff]
    exact exec_wrCtrl_of_busy hctrl hbusy hcmd
  · rw [decodeWrite_of_msg a.wdata hoff]
    exact exec_wrMsg_of_busy hbusy _ a.wdata
  · have hdin : dinReserved a.wdata = 0 := not_not.mp fun hne => hres (.inr ⟨hoff, hne⟩)
    rw [hoff]
    exact exec_wrDin_of_busy hdin hbusy

/-- The reads that BUSY refuses. -/
theorem exec_decodeRead_of_touchesBlock {s : State} {a : Access} (hbusy : s.busy = true) (hread : a.isWrite = false)
    (h : touchesBlock a) : exec (decodeRead a.off) s = .next (refusedRead s AccessError.busyAccess.code) := by
  obtain ⟨hwrite, -⟩ | ⟨-, hoff | hoff⟩ := h
  · simp [hread] at hwrite
  · rw [decodeRead_of_digest hoff]
    exact exec_rdDigest_of_busy hbusy _
  · rw [hoff]
    exact exec_rdDout_of_busy hbusy

/-! ## The lowest cause of an access (60_exceptions.md R164) -/

section LowestCause

variable {e e' : AccessError} {a : Access} {s : State}

theorem lowestCause.not_applies_below (h : lowestCause e a s) (hlt : e'.code < e.code) : ¬ applies e' a s :=
  fun happ => BitVec.not_le.mpr hlt (h.2 e' happ)

theorem lowestCause.size (h : lowestCause e a s) (hlt : AccessError.badSize.code < e.code) : a.size = 0b10#2 :=
  not_not.mp (h.not_applies_below hlt)

theorem lowestCause.aligned (h : lowestCause e a s) (hlt : AccessError.misaligned.code < e.code) :
    a.off.extractLsb' 0 2 = 0b00#2 :=
  not_not.mp (h.not_applies_below hlt)

/-- An access with a lowest cause above code 2 passes the checks of size and alignment, so its direction and offset
decide (30_encoding.md R66). -/
theorem lowestCause.decode_eq (h : lowestCause e a s) (hlt : AccessError.misaligned.code < e.code) :
    decode a = decodeAligned a.dir a.off :=
  decode_of_word_aligned (h.size (BitVec.lt_trans (by decide) hlt)) (h.aligned hlt)

theorem lowestCause.exec_of_write (h : lowestCause e a s) (hlt : AccessError.misaligned.code < e.code)
    (hwrite : a.isWrite = true)
    (hexec : exec (decodeWrite a.wdata a.off) s = .next (refusedWrite s e.code)) :
    exec (decode a) s = .next (refusedAccess s a.dir e.code) := by
  have hdir : a.dir = .write a.wdata := if_pos hwrite
  rw [h.decode_eq hlt, hdir]
  exact hexec

theorem lowestCause.exec_of_read (h : lowestCause e a s) (hlt : AccessError.misaligned.code < e.code)
    (hread : a.isWrite = false) (hexec : exec (decodeRead a.off) s = .next (refusedRead s e.code)) :
    exec (decode a) s = .next (refusedAccess s a.dir e.code) := by
  have hdir : a.dir = .read := by simp [Access.dir, hread]
  rw [h.decode_eq hlt, hdir]
  exact hexec

end LowestCause

/-- Settles O35: since no cause of a lower code applies, the access passes every check before that of its own cause,
and that check refuses it. -/
theorem lowestCodeReported : Obligations.LowestCodeReported := by
  intro e a s h
  have happ := h.1
  cases e with
  | badSize => exact badsizeRefused.2 s a happ
  | misaligned => exact misalignedRefused.2 s a (h.size (by decide)) happ
  | reservedOffset =>
    have halign := h.aligned (by decide)
    exact reservedOffsetsRefused.2 s a (h.size (by decide)) halign (reservedOffset_of_inReservedRange halign happ)
  | readOnlyWrite =>
    obtain ⟨hwrite, hoff⟩ := happ
    exact h.exec_of_write (by decide) hwrite (exec_decodeWrite_of_isReadOnly s a.wdata hoff)
  | reservedBits =>
    obtain ⟨hwrite, hbits⟩ := happ
    exact h.exec_of_write (by decide) hwrite (exec_decodeWrite_of_setsReservedBits s hbits)
  | busyAccess =>
    obtain ⟨hbusy, htouch⟩ := happ
    cases hdir : a.isWrite with
    | false => exact h.exec_of_read (by decide) hdir (exec_decodeRead_of_touchesBlock hbusy hdir htouch)
    | true =>
      have hres : ¬ setsReservedBits a :=
        fun hbits => h.not_applies_below (e' := .reservedBits) (by decide) ⟨hdir, hbits⟩
      exact h.exec_of_write (by decide) hdir (exec_decodeWrite_of_touchesBlock hbusy hdir hres htouch)

end Sys2Proof.Machine

namespace Sys2Proof.Machine

/-! ## Reset (70_reset_and_hazards.md R181) -/

/-- A step with an event left takes the first one. -/
theorem step_of_inbox_cons {s : State} {e : Event} {rest : List Event} (h : s.inbox = e :: rest) :
    step s = runEvent e { s with inbox := rest } := by
  rw [step, takeTurn, h]

/-- No invariant is asked for, and BUSY does not matter: reset is not gated (log 5). -/
theorem step_of_reset_next {s : State} {rest : List Event} (h : s.inbox = .reset :: rest) :
    step s = .next (State.applyReset { s with inbox := rest }) :=
  step_of_inbox_cons h

/-- Reset leaves every schedule word absent (10_state.md R40, R41). -/
theorem State.reset_w_getElem (i : Fin 64) : State.reset.w[i] = none :=
  Vector.getElem_replicate i.isLt

/-- Settles O3: a step with reset next applies it, and `applyReset` takes every element from `State.reset`, whose
values are those of 10_state.md R41. -/
theorem resetSetsEveryElement : Obligations.ResetSetsEveryElement := by
  rintro s ⟨rest, hnext⟩
  refine ⟨State.applyReset { s with inbox := rest }, step_of_reset_next hnext, ?hs, ?msg, ?w, ?others⟩
  case hs => exact fun _ => rfl
  case msg => exact State.reset_msg_getElem
  case w => exact State.reset_w_getElem
  case others => exact ⟨rfl, rfl, rfl, rfl, rfl, rfl, rfl, rfl⟩

end Sys2Proof.Machine

namespace Sys2Proof.Machine

/-! ## Whose turn a step is (00_scope.md R5, 20_memory.md R55) -/

/-- A step with no event left is CORE's turn. -/
theorem step_of_inbox_nil {s : State} (h : s.inbox = []) : step s = runEvent .core s := by
  rw [step, takeTurn, h]

theorem runEvent_access_of_invariant (a : Access) {s : State} (h : s.Invariant) :
    runEvent (.access a) s = exec (decode a) s :=
  if_pos h

theorem runEvent_core_of_invariant {s : State} (h : s.Invariant) : runEvent .core s = coreStep s :=
  if_pos h

/-- A step takes the first event away and runs it; CORE's is the event when none is left. -/
theorem step_eq_runEvent (s : State) :
    ∃ (e : Event) (rest : List Event), step s = runEvent e { s with inbox := rest } ∧
      (s.inbox = e :: rest ∨ (s.inbox = [] ∧ e = .core)) := by
  cases hin : s.inbox with
  | nil =>
    have hs : { s with inbox := [] } = s := by rw [← hin]
    exact ⟨.core, [], by rw [hs, step_of_inbox_nil hin], .inr ⟨rfl, rfl⟩⟩
  | cons e rest => exact ⟨e, rest, step_of_inbox_cons hin, .inl rfl⟩

/-- Everything a step can do, by the agent whose turn it is: a host access, CORE's turn or reset. -/
theorem step_agents {s t : State} (h : step s = .next t) :
    ∃ rest : List Event,
      (∃ a, s.inbox = .access a :: rest ∧ s.Invariant ∧ exec (decode a) { s with inbox := rest } = .next t) ∨
      (s.CoreTurn ∧ s.Invariant ∧ coreStep { s with inbox := rest } = .next t) ∨
      (s.ResetNext ∧ t = State.applyReset { s with inbox := rest }) := by
  obtain ⟨e, rest, hstep, hin⟩ := step_eq_runEvent s
  refine ⟨rest, ?_⟩
  obtain ⟨a, rfl, hinv, hexec⟩ | ⟨rfl, hinv, hcore⟩ | ⟨rfl, ht⟩ := runEvent_cases (hstep.symm.trans h)
  · exact .inl ⟨a, hin.resolve_right (by simp), hinv, hexec⟩
  · exact .inr (.inl ⟨hin.symm.imp And.left (⟨rest, ·⟩), hinv, hcore⟩)
  · exact .inr (.inr ⟨⟨rest, hin.resolve_right (by simp)⟩, ht⟩)

/-- The step after an access was placed runs it (log 1). -/
theorem step_withAccess {s : State} (a : Access) (h : s.Invariant) : step (s.withAccess a) = exec (decode a) s :=
  (step_of_inbox_cons (s.withAccess_inbox a)).trans (runEvent_access_of_invariant a h)

/-- Settles O1: the invariants do not speak of `inbox`, so the step does not stop at its check, and a word that decodes
is an access that `withFetchWord` puts first. -/
theorem stepRunsIssuedAccess : Obligations.StepRunsIssuedAccess := by
  refine ⟨fun s a rest hin hinv => ?issued, fun s nbits w i hinv hword => ?placed⟩
  case issued => exact (step_of_inbox_cons hin).trans (runEvent_access_of_invariant a hinv)
  case placed =>
    obtain ⟨a, hacc, rfl⟩ := (decodeTableWord_eq_some_iff nbits w i).mp hword
    rw [State.withFetchWord, hacc]
    exact step_withAccess a hinv

/-- Settles O2: a CORE event that is first, or no event at all, gives CORE its turn. -/
theorem stepGivesCoreItsTurn : Obligations.StepGivesCoreItsTurn :=
  fun _ hinv => ⟨fun _ hin => (step_of_inbox_cons hin).trans (runEvent_core_of_invariant hinv),
    fun hin => (step_of_inbox_nil hin).trans (runEvent_core_of_invariant hinv)⟩

/-! ## While BUSY = 0 CORE has no step (43_compressor.md R117) -/

theorem coreStep_of_idle {s : State} (h : s.busy = false) : coreStep s = .next s := by
  simp [coreStep, h]

/-- Settles O43: CORE's turn while BUSY = 0 passes, and with no event left the turn is CORE's. -/
theorem idleCoreHasNoStep : Obligations.IdleCoreHasNoStep := by
  refine fun s hidle => ⟨coreStep_of_idle hidle, fun hinv hin => ?_⟩
  rw [step_of_inbox_nil hin, runEvent_core_of_invariant hinv, coreStep_of_idle hidle]

/-! ## Every step keeps the invariants (10_state.md R42) -/

/-- Every code is one of 1 to 6 (60_exceptions.md R162). -/
theorem AccessError.code_ne_zero_and_le (e : AccessError) : e.code ≠ 0 ∧ e.code.toNat ≤ 6 := by
  cases e <;> decide

/-- A refused access records a code other than 0, or leaves the one that was there. -/
theorem State.Invariant.refuse {s : State} (h : s.Invariant) (dir : Dir) (e : AccessError) :
    (s.refuse dir e).Invariant := by
  obtain ⟨ht, hbusy, herr, hcode, hidle⟩ := h
  obtain ⟨hne, hle⟩ := e.code_ne_zero_and_le
  have hfield : (s.refuse dir e).errcode = if s.err then s.errcode else e.code := by simp
  refine ⟨by simpa using ht, by simpa using hbusy, ?_, ?_, by simpa using hidle⟩
  · rw [hfield]
    cases hs : s.err <;> simp_all
  · rw [hfield]
    split
    · exact hcode
    · exact hle

/-- START and INIT clear t and VALID together, and CLRERR clears ERR and ERRCODE together. -/
theorem State.Invariant.runCommands {s : State} (h : s.Invariant) (x : Word) : (s.runCommands x).Invariant := by
  obtain ⟨ht, hbusy, herr, hcode, hidle⟩ := h
  refine ⟨?_, ?_, ?_, ?_, ?_⟩
  · rw [State.runCommands_t]
    split
    · exact Nat.zero_le 64
    · exact ht
  · cases hstart : ctrlStart x <;> simp +contextual [hstart, hbusy]
  · cases hclr : ctrlClrerr x <;> simp [hclr, herr]
  · cases hclr : ctrlClrerr x <;> simp [hclr, hcode]
  · cases hstart : ctrlStart x <;> cases hinit : ctrlInit x <;> simp_all

theorem exec_invariant {i : Instr} {s t : State} (hinv : s.Invariant) (h : exec i s = .next t) : t.Invariant := by
  obtain ⟨v, rfl⟩ | ⟨dir, e, rfl⟩ | ⟨x, -, -, -, rfl⟩ | ⟨x, -, -, -, rfl⟩ | ⟨-, -, rfl⟩ | ⟨k, x, -, -, rfl⟩ :=
    exec_cases h
  · exact hinv
  · exact hinv.refuse dir e
  · exact hinv.runCommands x
  · exact hinv
  · exact hinv
  · exact hinv

/-- A round counts t up from below 64, and the accumulation sets VALID as it clears BUSY. -/
theorem coreStep_invariant {s t : State} (hinv : s.Invariant) (h : coreStep s = .next t) : t.Invariant := by
  obtain ⟨-, rfl⟩ | ⟨hr, st, wt, hb, -, -, rfl⟩ | ⟨st, -, ht64, -, rfl⟩ := coreStep_cases h
  · exact hinv
  · obtain ⟨-, hbusy, herr, hcode, -⟩ := hinv
    refine ⟨?_, hbusy, herr, hcode, fun hidle => ?_⟩
    · rw [State.afterRound_t, toNat_add_one_of_round hr]
      exact hr
    · rw [State.afterRound_busy, hb] at hidle
      cases hidle
  · obtain ⟨ht, -, herr, hcode, -⟩ := hinv
    exact ⟨ht, fun hb => (by cases hb), herr, hcode, fun _ _ => ht64⟩

theorem State.applyReset_invariant (s : State) : s.applyReset.Invariant :=
  (by decide : State.reset.Invariant)

theorem step_invariant {s t : State} (hinv : s.Invariant) (h : step s = .next t) : t.Invariant := by
  obtain ⟨rest, ⟨a, -, -, hexec⟩ | ⟨-, -, hcore⟩ | ⟨-, rfl⟩⟩ := step_agents h
  · exact exec_invariant (s := { s with inbox := rest }) hinv hexec
  · exact coreStep_invariant (s := { s with inbox := rest }) hinv hcore
  · exact State.applyReset_invariant _

/-- Settles O6: an access, a CORE turn and reset each keep the invariants. -/
theorem everyStepKeepsInvariants : Obligations.EveryStepKeepsInvariants :=
  fun _ _ hinv h => step_invariant hinv h

theorem Reachable.invariant {s : State} (h : Reachable s) : s.Invariant := by
  induction h with
  | start events => exact (by decide : State.reset.Invariant)
  | step _ hstep ih => exact step_invariant ih hstep

/-- Settles O7: the invariants hold at reset and every step keeps them; the pointers are in range by their widths. -/
theorem reachableStatesHaveInvariants : Obligations.ReachableStatesHaveInvariants := by
  intro s h
  obtain ⟨ht, hbusy, herr, hcode, hidle⟩ := h.invariant
  exact ⟨ht, hbusy, herr, hcode, Nat.le_of_lt_succ s.dinptr.isLt, Nat.le_of_lt_succ s.doutptr.isLt, hidle⟩

end Sys2Proof.Machine

namespace Sys2Proof.Machine

/-! ## What an access can do while BUSY = 1, and how BUSY rises (43_compressor.md R121, 60_exceptions.md R168) -/

/-- Under BUSY the accesses that write the block are refused, and CTRL runs at most CLRERR. -/
theorem exec_of_busy {i : Instr} {s t : State} (hbusy : s.busy = true) (h : exec i s = .next t) :
    t = { s with err := t.err, errcode := t.errcode, rdata := t.rdata } := by
  obtain ⟨v, rfl⟩ | ⟨dir, e, rfl⟩ | ⟨x, -, -, hcmd, rfl⟩ | ⟨x, -, -, hidle, -⟩ | ⟨-, hidle, -⟩ |
    ⟨k, x, -, hidle, -⟩ := exec_cases h
  · rfl
  · rw [State.refuse_eq]
    cases dir <;> rfl
  · have hinit : ctrlInit x = false := by
      by_contra hne
      exact hcmd ⟨hbusy, .inl (by simpa using hne)⟩
    have hstart : ctrlStart x = false := by
      by_contra hne
      exact hcmd ⟨hbusy, .inr (by simpa using hne)⟩
    simp only [State.runCommands, hinit, hstart, Bool.false_eq_true, if_false]
    split <;> rfl
  all_goals exact absurd (hbusy.symm.trans hidle) (by decide)

/-- Settles O42: an access that BUSY meets is refused, reads, or clears the error. -/
theorem busyBlockUndisturbed : Obligations.BusyBlockUndisturbed :=
  fun _ _ _ hbusy h => exec_of_busy hbusy h

/-- Only a CTRL write with START makes an idle block busy. -/
theorem exec_start_of_busy_rises {i : Instr} {s t : State} (hidle : s.busy = false) (h : exec i s = .next t)
    (hbusy : t.busy = true) : ∃ x, i = .wrCtrl x ∧ ctrlStart x = true ∧ t = s.runCommands x := by
  obtain ⟨v, rfl⟩ | ⟨dir, e, rfl⟩ | ⟨x, hi, -, -, rfl⟩ | ⟨x, -, -, -, rfl⟩ | ⟨-, -, rfl⟩ | ⟨k, x, -, -, rfl⟩ :=
    exec_cases h
  case inr.inr.inl => exact ⟨x, hi, by simpa [hidle] using hbusy, rfl⟩
  all_goals exact absurd hbusy (by simp [hidle])

/-! ## A safe state goes on (10_state.md R40, 60_exceptions.md R161) -/

/-- START writes all that the round steps of its block read: A..H and W[0..15] (43_compressor.md R113). -/
theorem State.runCommands_present {s : State} {x : Word} (h : ctrlStart x = true) : (s.runCommands x).Present where
  work _ := by simp [h]
  words _ i hi hlt := by
    have h16 : i < 16 := by simpa [h] using hlt
    have hw : (s.runCommands x).w = loadSchedule s.msg s.w := by simp [h]
    simp only [hw, loadSchedule_getElem, dif_pos h16]
    simp

theorem State.present_of_idle {s : State} (h : s.busy = false) : s.Present where
  work hb := absurd (hb.symm.trans h) (by decide)
  words hb := absurd (hb.symm.trans h) (by decide)

theorem State.safe_of_idle {s : State} (hinv : s.Invariant) (hidle : s.busy = false) : s.Safe :=
  ⟨hinv, s.present_of_idle hidle⟩

/-- Under BUSY an access leaves A..H, W and t; and a block that it starts has them written. -/
theorem exec_safe {i : Instr} {s t : State} (hs : s.Safe) (h : exec i s = .next t) : t.Safe := by
  refine ⟨exec_invariant hs.invariant h, ?_⟩
  cases hb : s.busy with
  | true =>
    rw [exec_of_busy hb h]
    exact ⟨hs.present.work, hs.present.words⟩
  | false =>
    cases ht : t.busy with
    | false => exact t.present_of_idle ht
    | true =>
      obtain ⟨x, -, hstart, rfl⟩ := exec_start_of_busy_rises hb h ht
      exact State.runCommands_present hstart

/-- The four words that a round reads lie below t, so they are there (42_scheduler.md R105). -/
theorem State.Present.roundWord {s : State} (h : s.Present) (hb : s.busy = true) (hr : s.t.toNat < 64) :
    ∃ wt, s.roundWord ⟨s.t.toNat, hr⟩ = some wt := by
  have word (i : Nat) (hi : i < 64) (hlt : i < max s.t.toNat 16) : ∃ x, s.w[i] = some x :=
    Option.ne_none_iff_exists'.mp (h.words hb i hi hlt)
  by_cases h16 : 16 ≤ s.t.toNat
  · obtain ⟨a, hsrc16⟩ := word (s.t.toNat - 16) (by omega) (by omega)
    obtain ⟨b, hsrc15⟩ := word (s.t.toNat - 15) (by omega) (by omega)
    obtain ⟨c, hsrc7⟩ := word (s.t.toNat - 7) (by omega) (by omega)
    obtain ⟨d, hsrc2⟩ := word (s.t.toNat - 2) (by omega) (by omega)
    exact ⟨_, s.roundWord_of_sources ⟨s.t.toNat, hr⟩ h16 hsrc16 hsrc15 hsrc7 hsrc2⟩
  · rw [s.roundWord_early ⟨s.t.toNat, hr⟩ (by simpa using h16)]
    exact word s.t.toNat hr (by omega)

/-- A round writes its own word of the schedule from round 16 on, and no other (42_scheduler.md R104). -/
theorem State.afterRound_w_getElem (s : State) (hr : s.t.toNat < 64) (st : Working) (wt : Word) (i : Nat)
    (hi : i < 64) :
    (s.afterRound ⟨s.t.toNat, hr⟩ st wt).w[i] = if i = s.t.toNat ∧ 16 ≤ i then some wt else s.w[i] := by
  by_cases h16 : 16 ≤ s.t.toNat
  · rw [s.afterRound_late ⟨s.t.toNat, hr⟩ h16]
    exact (Vector.getElem_set hr hi).trans (if_congr ⟨fun h => ⟨h.symm, by omega⟩, fun h => h.1.symm⟩ rfl rfl)
  · rw [s.afterRound_early ⟨s.t.toNat, hr⟩ (by simpa using h16)]
    exact (if_neg (by omega)).symm

/-- CORE's turn in a safe state reads no absent word, and it leaves a safe state. -/
theorem coreStep_of_safe {s : State} (hs : s.Safe) : ∃ t, coreStep s = .next t ∧ t.Safe := by
  cases hb : s.busy with
  | false => exact ⟨s, coreStep_of_idle hb, hs⟩
  | true =>
    obtain ⟨st, hst⟩ := Option.ne_none_iff_exists'.mp (hs.present.work hb)
    by_cases hr : s.t.toNat < 64
    · obtain ⟨wt, hwt⟩ := hs.present.roundWord hb hr
      have hcore := coreStep_of_round hr hb hst hwt
      refine ⟨_, hcore, coreStep_invariant hs.invariant hcore, fun _ => Option.some_ne_none _, fun _ i hi hlt => ?_⟩
      rw [State.afterRound_t, toNat_add_one_of_round hr] at hlt
      rw [s.afterRound_w_getElem hr st wt i hi]
      split
      · exact Option.some_ne_none wt
      next hne => exact hs.present.words hb i hi (by omega)
    · have ht : s.t = 64 := BitVec.eq_of_toNat_eq (Nat.le_antisymm hs.invariant.1 (Nat.le_of_not_lt hr))
      have hcore := coreStep_of_accumulate ht hb hst
      exact ⟨_, hcore, State.safe_of_idle (coreStep_invariant hs.invariant hcore) rfl⟩

theorem State.Safe.withInbox {s : State} (h : s.Safe) (l : List Event) : State.Safe { s with inbox := l } :=
  ⟨h.invariant, h.present.work, h.present.words⟩

theorem State.reset_safe (events : List Event) : State.Safe { State.reset with inbox := events } :=
  State.safe_of_idle (by decide : State.reset.Invariant) rfl

/-- Settles O5: BUSY = 0 at reset, so CORE has no step that could miss a word. -/
theorem resetIsSafe : Obligations.ResetIsSafe := State.reset_safe

theorem runEvent_of_safe (e : Event) {s : State} (hs : s.Safe) : ∃ t, runEvent e s = .next t ∧ t.Safe := by
  cases e with
  | access a =>
    obtain ⟨t, ht⟩ := exec_answers (decode a) s
    exact ⟨t, (runEvent_access_of_invariant a hs.invariant).trans ht, exec_safe hs ht⟩
  | core =>
    obtain ⟨t, ht, hsafe⟩ := coreStep_of_safe hs
    exact ⟨t, (runEvent_core_of_invariant hs.invariant).trans ht, hsafe⟩
  | reset => exact ⟨s.applyReset, rfl, State.safe_of_idle s.applyReset_invariant rfl⟩

theorem step_of_safe {s : State} (hs : s.Safe) : ∃ t, step s = .next t ∧ t.Safe := by
  obtain ⟨e, rest, hstep, -⟩ := step_eq_runEvent s
  rw [hstep]
  exact runEvent_of_safe e (hs.withInbox rest)

/-- Settles O8: each of the three events answers in a safe state, and leaves one. -/
theorem safeStatesGoOn : Obligations.SafeStatesGoOn := fun _ hs => step_of_safe hs

theorem run_of_safe (n : Nat) {s : State} (hs : s.Safe) :
    ∃ t : State, Host.Core.run Sys2Proof.core n s = .next t ∧ t.Safe := by
  induction n generalizing s with
  | zero => exact ⟨s, rfl, hs⟩
  | succ n ih =>
    obtain ⟨u, hstep, hu⟩ := step_of_safe hs
    obtain ⟨t, hrun, ht⟩ := ih hu
    exact ⟨t, (run_succ Sys2Proof.core n hstep).trans hrun, ht⟩

/-- Settles O9: reset is safe, whatever is to come, and a run from a safe state goes on. -/
theorem everyRunGoesOn : Obligations.EveryRunGoesOn := by
  intro events n
  obtain ⟨t, hrun, -⟩ := run_of_safe n (State.reset_safe events)
  exact ⟨t, hrun⟩

end Sys2Proof.Machine

namespace Sys2Proof.Machine

/-! ## Right after reset (10_state.md R41) -/

/-- Settles O4: the reads return the fields of `State.reset`, whose status and pointer words are 0. -/
theorem readsRightAfterReset : Obligations.ReadsRightAfterReset := by
  have hstatus : State.reset.statusWord = 0x00000000#32 := by decide
  have hptr : State.reset.ptrWord = 0x00000000#32 := by decide
  have hread (v w : Word) (h : v = w) : (Host.Outcome.next (State.reset.returnRead v) :
      Host.Outcome State Fault Refusal) = .next { State.reset with rdata := w :: State.reset.rdata } := by rw [h]; rfl
  refine ⟨hread _ _ hstatus, hread _ _ hptr, fun j => exec_rdDigest_of_idle rfl j, fun _ => rfl,
    State.reset_msg_getElem, State.reset_w_getElem, rfl, rfl, rfl, rfl, rfl, rfl, rfl, rfl⟩

/-! ## Accepted CTRL writes (45_host_access.md R137) -/

/-- A CTRL write whose reserved bits are 0, and which asks for INIT or START only while BUSY = 0, is accepted. -/
theorem exec_wrCtrl_of_accepted {s : State} {x : Word} (hres : ctrlReserved x = 0)
    (hcmd : s.busy = true → ctrlInit x = false ∧ ctrlStart x = false) :
    exec (.wrCtrl x) s = .next (s.runCommands x) := by
  cases hb : s.busy with
  | true => exact exec_wrCtrl_of_no_command s hres (hcmd hb).1 (hcmd hb).2
  | false => simp [exec, execWrCtrl, hres, hb]

/-- INIT alone. -/
theorem exec_wrCtrl_init {s : State} (hidle : s.busy = false) : exec (.wrCtrl 0x00000001#32) s = .next s.init :=
  exec_wrCtrl_of_accepted (by decide) (fun hb => absurd (hb.symm.trans hidle) (by decide))

/-- START alone. -/
theorem exec_wrCtrl_start {s : State} (hidle : s.busy = false) : exec (.wrCtrl 0x00000002#32) s = .next s.start :=
  exec_wrCtrl_of_accepted (by decide) (fun hb => absurd (hb.symm.trans hidle) (by decide))

/-- Settles O25: CLRERR is neither refused under BUSY nor followed by another command. -/
theorem clrerrClearsError : Obligations.ClrerrClearsError :=
  fun s => exec_wrCtrl_of_no_command s (by decide) (by decide) (by decide)

/-- Settles O26: the word 1 asks for INIT alone, and `State.init` names what it writes. -/
theorem initSeedsDigest : Obligations.InitSeedsDigest := fun _ hidle => exec_wrCtrl_init hidle

/-- Settles O27: the schedule is `loadSchedule` of the block. -/
theorem startBeginsBlock : Obligations.StartBeginsBlock :=
  fun s hidle => ⟨loadSchedule s.msg s.w, exec_wrCtrl_start hidle, fun i => loadSchedule_getElem s.msg s.w i.val i.isLt⟩

/-- START's schedule as O28 writes it, with an index that is total. -/
theorem loadSchedule_getElem_mod (m : Block) (w : Vector (Option Word) 64) (i : Fin 64) :
    (loadSchedule m w)[i] = if i.val < 16 then some (m[i.val % 16]'(by omega)) else w[i] := by
  rw [Fin.getElem_fin, loadSchedule_getElem]
  split
  next h => simp only [Nat.mod_eq_of_lt h]
  next => rfl

/-- Settles O28: the two refusals are the two checks of `execWrCtrl`, and an accepted write leaves `runCommands`, whose
fields say that INIT comes before START. -/
theorem ctrlWriteRunsCommands : Obligations.CtrlWriteRunsCommands := by
  refine fun s x => ⟨fun hres => exec_wrCtrl_of_reserved s hres, fun hres hb hcmd => exec_wrCtrl_of_busy hres hb hcmd,
    fun hres hcmd => ⟨s.runCommands x, exec_wrCtrl_of_accepted hres hcmd, s.runCommands_hs x, ?work, ?w,
      s.runCommands_t x, s.runCommands_busy x, ?valid, ?err, s.runCommands_errcode x, s.runCommands_dinptr x,
      s.runCommands_doutptr x, s.runCommands_msg x, s.runCommands_inbox x, s.runCommands_rdata x⟩,
    decode_write_word (off := 0x00#8) (by decide) (by decide) x⟩
  case work =>
    rw [State.runCommands_hs]
    exact s.runCommands_work x
  case w =>
    intro i
    have hw : (s.runCommands x).w = if ctrlStart x then loadSchedule s.msg s.w else s.w := s.runCommands_w x
    cases hstart : ctrlStart x with
    | true =>
      rw [if_pos hstart] at hw
      rw [hw, loadSchedule_getElem_mod]
      exact if_congr (and_iff_right hstart).symm rfl rfl
    | false =>
      have hne : ¬ ctrlStart x = true := by simp [hstart]
      rw [if_neg hne] at hw
      rw [hw]
      exact (if_neg fun h => hne h.1).symm
  case valid =>
    rw [State.runCommands_valid]
    show _ = if (ctrlInit x || ctrlStart x) = true then false else s.valid
    cases ctrlInit x || ctrlStart x <;> rfl
  case err =>
    rw [State.runCommands_err]
    show _ = if ctrlClrerr x = true then false else s.err
    cases ctrlClrerr x <;> rfl

/-! ## Which errors an access records (60_exceptions.md R163, R166, R167) -/

/-- An access is refused with a code of its class, or it keeps ERR and ERRCODE, or it is a CTRL write with CLRERR. -/
theorem exec_error_cases {i : Instr} {s t : State} (h : exec i s = .next t) :
    (∃ dir, ∃ e ∈ classErrors i, t = s.refuse dir e) ∨ (t.err = s.err ∧ t.errcode = s.errcode) ∨
      (∃ x, i = .wrCtrl x ∧ ctrlClrerr x = true ∧ t.err = false ∧ t.errcode = 0) := by
  cases i
  case rdCtrl | rdStatus | rdPtr | rdDin | rdMsg =>
    obtain rfl := next_inj h
    exact .inr (.inl ⟨rfl, rfl⟩)
  case wrStatus | wrPtr | wrDout | wrDigest | accRsvd14 | accRsvd18 | accRsvd20 | accRsvdA0 | accRsvdC0 |
      accMisalignedOdd | accMisalignedEven | accBadsizeNarrow | accBadsizeX =>
    exact .inl ⟨_, _, List.mem_singleton_self _, next_inj h⟩
  case rdDout =>
    simp only [exec, execRdDout] at h
    split at h
    · exact .inl ⟨_, _, List.mem_singleton_self _, next_inj h⟩
    · obtain rfl := next_inj h
      exact .inr (.inl ⟨rfl, rfl⟩)
  case rdDigest j =>
    simp only [exec, execRdDigest] at h
    split at h
    · exact .inl ⟨_, _, List.mem_singleton_self _, next_inj h⟩
    · obtain rfl := next_inj h
      exact .inr (.inl ⟨rfl, rfl⟩)
  case wrMsg k x =>
    simp only [exec, execWrMsg] at h
    split at h
    · exact .inl ⟨_, _, List.mem_singleton_self _, next_inj h⟩
    · obtain rfl := next_inj h
      exact .inr (.inl ⟨rfl, rfl⟩)
  case wrDin x =>
    simp only [exec, execWrDin] at h
    split_ifs at h
    · exact .inl ⟨_, .reservedBits, by simp [classErrors], next_inj h⟩
    · exact .inl ⟨_, .busyAccess, by simp [classErrors], next_inj h⟩
    · obtain rfl := next_inj h
      exact .inr (.inl ⟨rfl, rfl⟩)
  case wrCtrl x =>
    simp only [exec, execWrCtrl] at h
    split_ifs at h
    · exact .inl ⟨_, .reservedBits, by simp [classErrors], next_inj h⟩
    · exact .inl ⟨_, .busyAccess, by simp [classErrors], next_inj h⟩
    · obtain rfl := next_inj h
      cases hclr : ctrlClrerr x with
      | false => exact .inr (.inl ⟨by simp [hclr], by simp [hclr]⟩)
      | true => exact .inr (.inr ⟨x, rfl, hclr, by simp [hclr], by simp [hclr]⟩)

/-- Settles O37: an error that was not there comes from a refusal, and that is with a code of the class. -/
theorem classRaisesItsCodesOnly : Obligations.ClassRaisesItsCodesOnly := by
  intro i s t h hclear herr
  obtain ⟨dir, e, he, rfl⟩ | ⟨hkeep, -⟩ | ⟨-, -, -, hoff, -⟩ := exec_error_cases h
  · exact ⟨e, he, by simp [hclear]⟩
  · exact absurd (herr.symm.trans (hkeep.trans hclear)) (by decide)
  · exact absurd (herr.symm.trans hoff) (by decide)

/-- CORE writes A..H, W, t, BUSY, VALID and Hs at most (43_compressor.md R115, 44_accumulator_serializer.md R127). -/
theorem coreStep_frame {s t : State} (h : coreStep s = .next t) :
    t.msg = s.msg ∧ t.err = s.err ∧ t.errcode = s.errcode ∧ t.dinptr = s.dinptr ∧ t.doutptr = s.doutptr ∧
      t.inbox = s.inbox ∧ t.rdata = s.rdata := by
  obtain ⟨-, rfl⟩ | ⟨hr, st, wt, -, -, -, rfl⟩ | ⟨st, -, -, -, rfl⟩ := coreStep_cases h <;>
    exact ⟨rfl, rfl, rfl, rfl, rfl, rfl, rfl⟩

/-- Settles O38: a refusal keeps the first error, CORE writes neither field, and what else clears them is a CLRERR. -/
theorem onlyClrerrAndResetClearError : Obligations.OnlyClrerrAndResetClearError := by
  intro s t herr h
  obtain ⟨rest, ⟨a, hin, -, hexec⟩ | ⟨-, -, hcore⟩ | ⟨hreset, -⟩⟩ := step_agents h
  · obtain ⟨dir, e, -, rfl⟩ | ⟨hkeep, hcode⟩ | ⟨x, hi, hclr, -⟩ := exec_error_cases hexec
    · exact .inl ⟨by simp, by simp [herr]⟩
    · exact .inl ⟨hkeep.trans herr, hcode⟩
    · exact .inr (.inr ⟨x, ⟨a, rest, hin, hi⟩, hclr⟩)
  · obtain ⟨-, hkeep, hcode, -⟩ := coreStep_frame hcore
    exact .inl ⟨hkeep.trans herr, hcode⟩
  · exact .inr (.inl hreset)

/-! ## Who writes Hs, MSG, BUSY and VALID (10_state.md R15, R16, R20, R21) -/

/-- An access writes Hs by INIT alone, which BUSY refuses. -/
theorem exec_hs {i : Instr} {s t : State} (h : exec i s = .next t) :
    t.hs = s.hs ∨ ∃ x, i = .wrCtrl x ∧ ctrlInit x = true ∧ s.busy = false := by
  obtain ⟨v, rfl⟩ | ⟨dir, e, rfl⟩ | ⟨x, hi, -, hcmd, rfl⟩ | ⟨x, -, -, -, rfl⟩ | ⟨-, -, rfl⟩ | ⟨k, x, -, -, rfl⟩ :=
    exec_cases h
  case inr.inr.inl =>
    cases hinit : ctrlInit x with
    | false => exact .inl (by simp [hinit])
    | true => exact .inr ⟨x, hi, hinit, by simpa [hinit] using hcmd⟩
  all_goals exact .inl (by simp)

/-- An access writes MSG by its two write ports alone, which BUSY refuses. -/
theorem exec_msg {i : Instr} {s t : State} (h : exec i s = .next t) :
    t.msg = s.msg ∨ (s.busy = false ∧ ((∃ k x, i = .wrMsg k x) ∨ ∃ x, i = .wrDin x)) := by
  obtain ⟨v, rfl⟩ | ⟨dir, e, rfl⟩ | ⟨x, -, -, -, rfl⟩ | ⟨x, hi, -, hidle, -⟩ | ⟨-, -, rfl⟩ | ⟨k, x, hi, hidle, -⟩ :=
    exec_cases h
  case inr.inr.inr.inl => exact .inr ⟨hidle, .inr ⟨x, hi⟩⟩
  case inr.inr.inr.inr.inr => exact .inr ⟨hidle, .inl ⟨k, x, hi⟩⟩
  all_goals exact .inl (by simp)

/-- No access ends a block. -/
theorem exec_busy_of_busy {i : Instr} {s t : State} (hbusy : s.busy = true) (h : exec i s = .next t) :
    t.busy = true := by
  rw [exec_of_busy hbusy h]
  exact hbusy

/-- No access sets VALID. -/
theorem exec_valid {i : Instr} {s t : State} (h : exec i s = .next t) (hvalid : t.valid = true) : s.valid = true := by
  obtain ⟨v, rfl⟩ | ⟨dir, e, rfl⟩ | ⟨x, -, -, -, rfl⟩ | ⟨x, -, -, -, rfl⟩ | ⟨-, -, rfl⟩ | ⟨k, x, -, -, rfl⟩ :=
    exec_cases h
  case inr.inr.inl => exact (Bool.and_eq_true_iff.mp ((s.runCommands_valid x).symm.trans hvalid)).2
  all_goals simpa using hvalid

/-- CORE writes Hs, BUSY and VALID in the accumulate step alone. -/
theorem coreStep_keeps_or_accumulates {s t : State} (h : coreStep s = .next t) :
    (t.hs = s.hs ∧ t.busy = s.busy ∧ t.valid = s.valid) ∨ (s.busy = true ∧ s.t = 64 ∧ t.valid = true) := by
  obtain ⟨-, rfl⟩ | ⟨hr, st, wt, -, -, -, rfl⟩ | ⟨st, hb, ht, -, rfl⟩ := coreStep_cases h
  · exact .inl ⟨rfl, rfl, rfl⟩
  · exact .inl ⟨rfl, rfl, rfl⟩
  · exact .inr ⟨hb, ht, rfl⟩

/-- Settles O39: of accesses only INIT writes Hs, of CORE's steps only the accumulation. -/
theorem onlyTheseWriteDigest : Obligations.OnlyTheseWriteDigest := by
  intro s t h
  obtain ⟨rest, ⟨a, hin, -, hexec⟩ | ⟨hturn, -, hcore⟩ | ⟨hreset, -⟩⟩ := step_agents h
  · exact (exec_hs hexec).imp_right fun ⟨x, hi, hinit, hidle⟩ => .inr (.inr ⟨x, ⟨a, rest, hin, hi⟩, hinit, hidle⟩)
  · obtain ⟨hkeep, -⟩ | ⟨hb, ht, -⟩ := coreStep_keeps_or_accumulates hcore
    · exact .inl hkeep
    · exact .inr (.inr (.inl ⟨hturn, hb, ht⟩))
  · exact .inr (.inl hreset)

/-- Settles O40: of accesses only the two write ports write MSG, and BUSY refuses both; CORE has no write to it. -/
theorem onlyTheseWriteBlock : Obligations.OnlyTheseWriteBlock := by
  intro s t h
  obtain ⟨rest, ⟨a, hin, -, hexec⟩ | ⟨-, -, hcore⟩ | ⟨hreset, -⟩⟩ := step_agents h
  · refine (exec_msg hexec).imp_right fun ⟨hidle, hport⟩ => .inr ⟨hidle, ?_⟩
    exact hport.imp (fun ⟨k, x, hi⟩ => ⟨k, x, a, rest, hin, hi⟩) (fun ⟨x, hi⟩ => ⟨x, a, rest, hin, hi⟩)
  · exact .inl (coreStep_frame hcore).1
  · exact .inr (.inl hreset)

/-- Settles O41: of accesses only START raises BUSY, none lowers it and none raises VALID; CORE does so by the
accumulate step alone; reset clears both. -/
theorem busyAndValidChangeOnlyHere : Obligations.BusyAndValidChangeOnlyHere := by
  intro s t h
  obtain ⟨rest, ⟨a, hin, -, hexec⟩ | ⟨hturn, -, hcore⟩ | ⟨hreset, rfl⟩⟩ := step_agents h
  · refine ⟨fun hidle hb => ?rises, fun hb hidle => ?falls, fun hinvalid hvalid => ?valid⟩
    case rises =>
      obtain ⟨x, hi, hstart, -⟩ := exec_start_of_busy_rises (s := { s with inbox := rest }) hidle hexec hb
      exact ⟨x, ⟨a, rest, hin, hi⟩, hstart⟩
    case falls =>
      have hstays : t.busy = true := exec_busy_of_busy (s := { s with inbox := rest }) hb hexec
      exact absurd (hstays.symm.trans hidle) (by decide)
    case valid => exact absurd ((exec_valid hexec hvalid).symm.trans hinvalid) (by decide)
  · obtain ⟨-, hkeepb, hkeepv⟩ | ⟨hb, ht, -⟩ := coreStep_keeps_or_accumulates hcore
    · exact ⟨fun hs hb => absurd (hb.symm.trans (hkeepb.trans hs)) (by decide),
        fun hs hb => absurd (hs.symm.trans (hkeepb.symm.trans hb)) (by decide),
        fun hs hv => absurd (hv.symm.trans (hkeepv.trans hs)) (by decide)⟩
    · exact ⟨fun hs => absurd (hb.symm.trans hs) (by decide), fun _ _ => .inr ⟨hturn, ht⟩, fun _ _ => ⟨hturn, hb, ht⟩⟩
  · exact ⟨fun _ hb => (by cases hb), fun _ _ => .inl hreset, fun _ hv => (by cases hv)⟩

end Sys2Proof.Machine

namespace Sys2Proof.Machine

/-! ## Encoding and then decoding (30_encoding.md R62, R66, R67) -/

/-- An access of another size is a BADSIZE row (45_host_access.md R148). -/
theorem decode_accessTo_narrow (dir : Dir) (sz : BitVec 1) (o : BitVec 8) :
    decode (accessTo dir (0b0#1 ++ sz) o) = .accBadsizeNarrow dir sz o := by
  have hsize : ∀ sz : BitVec 1,
      0b0#1 ++ sz ≠ 0b10#2 ∧ 0b0#1 ++ sz ≠ 0b11#2 ∧ (0b0#1 ++ sz).extractLsb' 0 1 = sz := by decide
  obtain ⟨hword, hres, hfield⟩ := hsize sz
  rw [decode_accessTo, if_pos hword, if_neg hres, hfield]

theorem decode_accessTo_reserved_size (dir : Dir) (o : BitVec 8) :
    decode (accessTo dir 0b11#2 o) = .accBadsizeX dir o := by
  rw [decode_accessTo, if_pos (by decide), if_pos rfl]

/-- A word access whose offset has bit 0 set is misaligned (45_host_access.md R147). -/
theorem decode_accessTo_odd (dir : Dir) (o : BitVec 7) :
    decode (accessTo dir 0b10#2 (o ++ 0b1#1)) = .accMisalignedOdd dir o := by
  have hoff : ∀ o : BitVec 7, (o ++ 0b1#1).extractLsb' 0 2 ≠ 0b00#2 ∧ (o ++ 0b1#1).getLsbD 0 = true ∧
      (o ++ 0b1#1).extractLsb' 1 7 = o := by decide
  obtain ⟨hmis, hodd, hfield⟩ := hoff o
  rw [decode_accessTo, if_neg (not_not.mpr rfl), if_pos hmis, if_pos hodd, hfield]

theorem decode_accessTo_even (dir : Dir) (o : BitVec 6) :
    decode (accessTo dir 0b10#2 (o ++ 0b10#2)) = .accMisalignedEven dir o := by
  have hoff : ∀ o : BitVec 6, (o ++ 0b10#2).extractLsb' 0 2 ≠ 0b00#2 ∧ ¬ (o ++ 0b10#2).getLsbD 0 = true ∧
      (o ++ 0b10#2).extractLsb' 2 6 = o := by decide
  obtain ⟨hmis, heven, hfield⟩ := hoff o
  rw [decode_accessTo, if_neg (not_not.mpr rfl), if_pos hmis, if_neg heven, hfield]

/-- An aligned word access is decoded by its offset. -/
theorem decode_accessTo_aligned (dir : Dir) {off : BitVec 8} (halign : off.extractLsb' 0 2 = 0b00#2) :
    decode (accessTo dir 0b10#2 off) = decodeAligned dir off := by
  rw [decode_accessTo, if_neg (not_not.mpr rfl), if_neg (not_not.mpr halign)]

/-- An aligned access to a reserved offset is decoded by the five rows of ACC.RSVD. -/
theorem decode_accessTo_of_reserved (dir : Dir) {off : BitVec 8} (halign : off.extractLsb' 0 2 = 0b00#2)
    (hoff : (0x14#8 ≤ off ∧ off ≤ 0x3C#8) ∨ (0xA0#8 ≤ off ∧ off ≤ 0xFC#8)) :
    decode (accessTo dir 0b10#2 off) = decodeReserved dir off :=
  (decode_accessTo_aligned dir halign).trans (decodeAligned_of_reserved dir hoff)

theorem decode_accessTo_reserved18 (dir : Dir) (r : BitVec 1) :
    decode (accessTo dir 0b10#2 (0b00011#5 ++ r ++ 0b00#2)) = .accRsvd18 dir r := by
  have hoff : ∀ r : BitVec 1, (0b00011#5 ++ r ++ 0b00#2).extractLsb' 0 2 = 0b00#2 ∧
      (0x14#8 ≤ 0b00011#5 ++ r ++ 0b00#2 ∧ 0b00011#5 ++ r ++ 0b00#2 ≤ 0x3C#8) ∧
      0b00011#5 ++ r ++ 0b00#2 ≠ 0x14#8 ∧ 0b00011#5 ++ r ++ 0b00#2 ≤ 0x1C#8 ∧
      (0b00011#5 ++ r ++ 0b00#2).extractLsb' 2 1 = r := by decide
  obtain ⟨halign, hrange, h14, h18, hfield⟩ := hoff r
  rw [decode_accessTo_of_reserved dir halign (.inl hrange), decodeReserved, if_neg h14, if_pos h18, hfield]

theorem decode_accessTo_reserved20 (dir : Dir) (r : BitVec 3) :
    decode (accessTo dir 0b10#2 (0b001#3 ++ r ++ 0b00#2)) = .accRsvd20 dir r := by
  have hoff : ∀ r : BitVec 3, (0b001#3 ++ r ++ 0b00#2).extractLsb' 0 2 = 0b00#2 ∧
      (0x14#8 ≤ 0b001#3 ++ r ++ 0b00#2 ∧ 0b001#3 ++ r ++ 0b00#2 ≤ 0x3C#8) ∧
      0b001#3 ++ r ++ 0b00#2 ≠ 0x14#8 ∧ ¬ 0b001#3 ++ r ++ 0b00#2 ≤ 0x1C#8 ∧
      (0b001#3 ++ r ++ 0b00#2).extractLsb' 2 3 = r := by decide
  obtain ⟨halign, hrange, h14, h18, hfield⟩ := hoff r
  rw [decode_accessTo_of_reserved dir halign (.inl hrange), decodeReserved, if_neg h14, if_neg h18, if_pos hrange.2,
    hfield]

theorem decode_accessTo_reservedA0 (dir : Dir) (r : BitVec 3) :
    decode (accessTo dir 0b10#2 (0b101#3 ++ r ++ 0b00#2)) = .accRsvdA0 dir r := by
  have hoff : ∀ r : BitVec 3, (0b101#3 ++ r ++ 0b00#2).extractLsb' 0 2 = 0b00#2 ∧
      (0xA0#8 ≤ 0b101#3 ++ r ++ 0b00#2 ∧ 0b101#3 ++ r ++ 0b00#2 ≤ 0xFC#8) ∧
      0b101#3 ++ r ++ 0b00#2 ≠ 0x14#8 ∧ ¬ 0b101#3 ++ r ++ 0b00#2 ≤ 0x1C#8 ∧ ¬ 0b101#3 ++ r ++ 0b00#2 ≤ 0x3C#8 ∧
      0b101#3 ++ r ++ 0b00#2 ≤ 0xBC#8 ∧ (0b101#3 ++ r ++ 0b00#2).extractLsb' 2 3 = r := by decide
  obtain ⟨halign, hrange, h14, h18, h20, hA0, hfield⟩ := hoff r
  rw [decode_accessTo_of_reserved dir halign (.inr hrange), decodeReserved, if_neg h14, if_neg h18, if_neg h20,
    if_pos hA0, hfield]

theorem decode_accessTo_reservedC0 (dir : Dir) (r : BitVec 4) :
    decode (accessTo dir 0b10#2 (0b11#2 ++ r ++ 0b00#2)) = .accRsvdC0 dir r := by
  have hoff : ∀ r : BitVec 4, (0b11#2 ++ r ++ 0b00#2).extractLsb' 0 2 = 0b00#2 ∧
      (0xA0#8 ≤ 0b11#2 ++ r ++ 0b00#2 ∧ 0b11#2 ++ r ++ 0b00#2 ≤ 0xFC#8) ∧
      0b11#2 ++ r ++ 0b00#2 ≠ 0x14#8 ∧ ¬ 0b11#2 ++ r ++ 0b00#2 ≤ 0x1C#8 ∧ ¬ 0b11#2 ++ r ++ 0b00#2 ≤ 0x3C#8 ∧
      ¬ 0b11#2 ++ r ++ 0b00#2 ≤ 0xBC#8 ∧ (0b11#2 ++ r ++ 0b00#2).extractLsb' 2 4 = r := by decide
  obtain ⟨halign, hrange, h14, h18, h20, hA0, hfield⟩ := hoff r
  rw [decode_accessTo_of_reserved dir halign (.inr hrange), decodeReserved, if_neg h14, if_neg h18, if_neg h20,
    if_neg hA0, hfield]

/-- A word write whose offset is a register's is that register's row. -/
theorem decode_accessTo_write {off : BitVec 8} (halign : off.extractLsb' 0 2 = 0b00#2) (x : Word) :
    decode (accessTo (.write x) 0b10#2 off) = decodeWrite x off :=
  decode_accessTo_aligned (.write x) halign

/-- The pattern of the MSG rows, `01iiii00`, is the offset of MSG[i] (30_encoding.md R67). -/
theorem decode_encode_msg (i : Fin 16) (x : Word) :
    decode (encode (.rdMsg i)) = .rdMsg i ∧ decode (encode (.wrMsg i x)) = .wrMsg i x := by
  have hd : ∀ i : Fin 16,
      descriptor false 0b10#2 (0b01#2 ++ BitVec.ofFin (w := 4) i ++ 0b00#2) = BitVec.ofNat 11 (0x240 + 4 * i.val) ∧
      descriptor true 0b10#2 (0b01#2 ++ BitVec.ofFin (w := 4) i ++ 0b00#2) = BitVec.ofNat 11 (0x640 + 4 * i.val) := by
    decide
  obtain ⟨hread, hwrite⟩ := hd i
  simp only [encode, accessTo, hread, hwrite]
  exact ⟨decode_rdMsg i 0, decode_wrMsg i x⟩

/-- The pattern of the DIGEST rows, `100jjj00`, is the offset of DIGEST[j] (30_encoding.md R67). -/
theorem decode_encode_digest (j : Fin 8) (x : Word) :
    decode (encode (.rdDigest j)) = .rdDigest j ∧ decode (encode (.wrDigest j x)) = .wrDigest j x := by
  have hd : ∀ j : Fin 8,
      descriptor false 0b10#2 (0b100#3 ++ BitVec.ofFin (w := 3) j ++ 0b00#2) = BitVec.ofNat 11 (0x280 + 4 * j.val) ∧
      descriptor true 0b10#2 (0b100#3 ++ BitVec.ofFin (w := 3) j ++ 0b00#2) = BitVec.ofNat 11 (0x680 + 4 * j.val) := by
    decide
  obtain ⟨hread, hwrite⟩ := hd j
  simp only [encode, accessTo, hread, hwrite]
  exact ⟨decode_rdDigest j 0, decode_wrDigest j x⟩

/-- Settles O10: each row's pattern passes the checks that lead to the row, with its operands read back. -/
theorem decodeOfEncode : Obligations.DecodeOfEncode := by
  intro i
  cases i
  case rdCtrl | rdStatus | rdPtr | rdDin | rdDout => decide
  case wrCtrl x | wrStatus x | wrPtr x | wrDin x | wrDout x => exact decode_accessTo_write (by decide) x
  case rdMsg k => exact (decode_encode_msg k 0).1
  case wrMsg k x => exact (decode_encode_msg k x).2
  case rdDigest j => exact (decode_encode_digest j 0).1
  case wrDigest j x => exact (decode_encode_digest j x).2
  case accRsvd14 dir => exact decode_accessTo_of_reserved dir (by decide) (.inl (by decide))
  case accRsvd18 dir r => exact decode_accessTo_reserved18 dir r
  case accRsvd20 dir r => exact decode_accessTo_reserved20 dir r
  case accRsvdA0 dir r => exact decode_accessTo_reservedA0 dir r
  case accRsvdC0 dir r => exact decode_accessTo_reservedC0 dir r
  case accMisalignedOdd dir o => exact decode_accessTo_odd dir o
  case accMisalignedEven dir o => exact decode_accessTo_even dir o
  case accBadsizeNarrow dir sz o => exact decode_accessTo_narrow dir sz o
  case accBadsizeX dir o => exact decode_accessTo_reserved_size dir o

/-! ## Decoding and then encoding (30_encoding.md R62, R66, R67) -/

/-- An aligned offset in the MSG or the DIGEST window is its index in the pattern of its row. -/
theorem off_eq_of_window : ∀ off : BitVec 8, off.extractLsb' 0 2 = 0b00#2 →
    (0x40#8 ≤ off ∧ off ≤ 0x7C#8 → 0b01#2 ++ BitVec.ofFin (w := 4) (off.extractLsb' 2 4).toFin ++ 0b00#2 = off) ∧
    (0x80#8 ≤ off ∧ off ≤ 0x9C#8 → 0b100#3 ++ BitVec.ofFin (w := 3) (off.extractLsb' 2 3).toFin ++ 0b00#2 = off) := by
  decide

/-- The offsets that are left below the registers and the windows (30_encoding.md R66). -/
def leftToReserved (off : BitVec 8) : Prop :=
  off.extractLsb' 0 2 = 0b00#2 ∧ off ≠ 0x00#8 ∧ off ≠ 0x04#8 ∧ off ≠ 0x08#8 ∧ off ≠ 0x0C#8 ∧ off ≠ 0x10#8 ∧
    ¬ (0x40#8 ≤ off ∧ off ≤ 0x7C#8) ∧ ¬ (0x80#8 ≤ off ∧ off ≤ 0x9C#8)

/-- Such an offset is its free bits in the pattern of the row that `decodeReserved` picks. -/
theorem off_eq_of_leftToReserved : ∀ off : BitVec 8, leftToReserved off →
    (off ≠ 0x14#8 → off ≤ 0x1C#8 → 0b00011#5 ++ off.extractLsb' 2 1 ++ 0b00#2 = off) ∧
    (¬ off ≤ 0x1C#8 → off ≤ 0x3C#8 → 0b001#3 ++ off.extractLsb' 2 3 ++ 0b00#2 = off) ∧
    (¬ off ≤ 0x3C#8 → off ≤ 0xBC#8 → 0b101#3 ++ off.extractLsb' 2 3 ++ 0b00#2 = off) ∧
    (¬ off ≤ 0xBC#8 → 0b11#2 ++ off.extractLsb' 2 4 ++ 0b00#2 = off) := by
  unfold leftToReserved
  decide

/-- A misaligned offset is its upper bits and the pattern of its row. -/
theorem off_eq_of_misaligned : ∀ off : BitVec 8, off.extractLsb' 0 2 ≠ 0b00#2 →
    (off.getLsbD 0 = true → off.extractLsb' 1 7 ++ 0b1#1 = off) ∧
    (¬ off.getLsbD 0 = true → off.extractLsb' 2 6 ++ 0b10#2 = off) := by
  decide

/-- A size other than word and the reserved one is its low bit below a 0. -/
theorem size_eq_of_narrow : ∀ size : BitVec 2, size ≠ 0b10#2 → size ≠ 0b11#2 →
    0b0#1 ++ size.extractLsb' 0 1 = size := by
  decide

theorem encode_decodeReserved (dir : Dir) {off : BitVec 8} (h : leftToReserved off) :
    encode (decodeReserved dir off) = accessTo dir 0b10#2 off := by
  obtain ⟨h18, h20, hA0, hC0⟩ := off_eq_of_leftToReserved off h
  unfold decodeReserved
  split_ifs with is14 le18 le20 leA0
  · rw [is14]
    rfl
  · exact congrArg (accessTo dir 0b10#2) (h18 is14 le18)
  · exact congrArg (accessTo dir 0b10#2) (h20 le18 le20)
  · exact congrArg (accessTo dir 0b10#2) (hA0 le20 leA0)
  · exact congrArg (accessTo dir 0b10#2) (hC0 leA0)

theorem encode_decodeRead {off : BitVec 8} (halign : off.extractLsb' 0 2 = 0b00#2) :
    encode (decodeRead off) = accessTo .read 0b10#2 off := by
  obtain ⟨hmsg, hdigest⟩ := off_eq_of_window off halign
  unfold decodeRead
  split_ifs with is0 is4 is8 isC is10 inMsg inDigest
  · rw [is0]; rfl
  · rw [is4]; rfl
  · rw [is8]; rfl
  · rw [isC]; rfl
  · rw [is10]; rfl
  · exact congrArg (accessTo .read 0b10#2) (hmsg inMsg)
  · exact congrArg (accessTo .read 0b10#2) (hdigest inDigest)
  · exact encode_decodeReserved .read ⟨halign, is0, is4, is8, isC, is10, inMsg, inDigest⟩

theorem encode_decodeWrite (x : Word) {off : BitVec 8} (halign : off.extractLsb' 0 2 = 0b00#2) :
    encode (decodeWrite x off) = accessTo (.write x) 0b10#2 off := by
  obtain ⟨hmsg, hdigest⟩ := off_eq_of_window off halign
  unfold decodeWrite
  split_ifs with is0 is4 is8 isC is10 inMsg inDigest
  · rw [is0]; rfl
  · rw [is4]; rfl
  · rw [is8]; rfl
  · rw [isC]; rfl
  · rw [is10]; rfl
  · exact congrArg (accessTo (.write x) 0b10#2) (hmsg inMsg)
  · exact congrArg (accessTo (.write x) 0b10#2) (hdigest inDigest)
  · exact encode_decodeReserved (.write x) ⟨halign, is0, is4, is8, isC, is10, inMsg, inDigest⟩

/-- Encoding gives back what the decoder looks at: the direction, the size and the offset. -/
theorem encode_decode (a : Access) : encode (decode a) = accessTo a.dir a.size a.off := by
  unfold decode
  split_ifs with hsize hres hmis hodd
  · rw [hres]
    rfl
  · exact congrArg (accessTo a.dir · a.off) (size_eq_of_narrow a.size hsize hres)
  · rw [not_not.mp hsize]
    exact congrArg (accessTo a.dir 0b10#2) ((off_eq_of_misaligned a.off hmis).1 hodd)
  · rw [not_not.mp hsize]
    exact congrArg (accessTo a.dir 0b10#2) ((off_eq_of_misaligned a.off hmis).2 hodd)
  · rw [not_not.mp hsize]
    cases a.dir with
    | read => exact encode_decodeRead (not_not.mp hmis)
    | write x => exact encode_decodeWrite x (not_not.mp hmis)

/-- A descriptor is its three fields, which are adjacent bit fields (30_encoding.md R62). -/
theorem descriptor_fields (a : Access) : descriptor a.isWrite a.size a.off = a.d := by
  have hwr : BitVec.ofBool a.isWrite = a.d.extractLsb' 10 1 := by
    ext i hi
    obtain rfl : i = 0 := by omega
    simp [Access.isWrite]
  have upper : a.d.extractLsb' 10 1 ++ a.d.extractLsb' 8 2 = a.d.extractLsb' 8 3 :=
    BitVec.extractLsb'_append_extractLsb'_eq_extractLsb' rfl
  have whole : a.d.extractLsb' 8 3 ++ a.d.extractLsb' 0 8 = a.d.extractLsb' 0 11 :=
    BitVec.extractLsb'_append_extractLsb'_eq_extractLsb' rfl
  rw [descriptor, Access.size, Access.off, hwr, upper, whole, BitVec.extractLsb'_eq_self]

/-- Settles O11: what encoding gives back is the whole descriptor, and the direction of a write carries its data. -/
theorem encodeOfDecode : Obligations.EncodeOfDecode := by
  intro a
  rw [encode_decode, ← descriptor_fields a]
  cases hw : a.isWrite with
  | true =>
    have hdir : a.dir = .write a.wdata := if_pos hw
    rw [hdir]
    exact ⟨rfl, fun _ => rfl⟩
  | false =>
    have hdir : a.dir = .read := by simp [Access.dir, hw]
    rw [hdir]
    exact ⟨rfl, fun h => (by cases h)⟩

/-! ## The rows of the opcode map (30_encoding.md R67) -/

/-- Where no two elements of a list meet a test together, an element that meets it is all that the filter leaves. -/
theorem filter_eq_singleton_of_pairwise {α : Type} {p : α → Bool} {l : List α} {x : α}
    (hpair : l.Pairwise fun y z => ¬ (p y = true ∧ p z = true)) (hx : x ∈ l) (hp : p x = true) :
    l.filter p = [x] := by
  induction hpair with
  | nil => cases hx
  | @cons y ys hhead htail ih =>
    obtain rfl | hmem := List.mem_cons.mp hx
    · have hnone : ys.filter p = [] := List.filter_eq_nil_iff.mpr fun z hz hpz => hhead z hz ⟨hp, hpz⟩
      rw [List.filter_cons_of_pos hp, hnone]
    · rw [List.filter_cons_of_neg fun hy => hhead x hmem ⟨hy, hp⟩]
      exact ih hmem

/-- Two rows that fix some bit differently name no descriptor together. -/
theorem not_covers_both {r q : OpcodeRow} (h : r.bits &&& q.mask ≠ q.bits &&& r.mask) (d : BitVec 11) :
    ¬ (r.covers d = true ∧ q.covers d = true) := by
  rintro ⟨hr, hq⟩
  simp only [OpcodeRow.covers, beq_iff_eq] at hr hq
  apply h
  rw [← hr, ← hq]
  simp only [BitVec.and_assoc, BitVec.and_comm r.mask]

theorem opcodeTable_pairwise : opcodeTable.Pairwise fun r q => r.bits &&& q.mask ≠ q.bits &&& r.mask := by
  decide

theorem row_mem_opcodeTable (i : Instr) : i.row ∈ opcodeTable := by
  cases i <;> simp [opcodeTable, rowSamples, Instr.row]

/-- The model's `EncodesInRow`, for every instruction. -/
theorem row_covers_encode (i : Instr) : i.row.covers (encode i).d = true := by
  match i with
  | .rdCtrl => exact Laws.EncodesInRow.rdCtrl
  | .wrCtrl x => exact Laws.EncodesInRow.wrCtrl x
  | .rdStatus => exact Laws.EncodesInRow.rdStatus
  | .wrStatus x => exact Laws.EncodesInRow.wrStatus x
  | .rdPtr => exact Laws.EncodesInRow.rdPtr
  | .wrPtr x => exact Laws.EncodesInRow.wrPtr x
  | .rdDin => exact Laws.EncodesInRow.rdDin
  | .wrDin x => exact Laws.EncodesInRow.wrDin x
  | .rdDout => exact Laws.EncodesInRow.rdDout
  | .wrDout x => exact Laws.EncodesInRow.wrDout x
  | .rdMsg k => exact Laws.EncodesInRow.rdMsg k
  | .wrMsg k x => exact Laws.EncodesInRow.wrMsg k x
  | .rdDigest j => exact Laws.EncodesInRow.rdDigest j
  | .wrDigest j x => exact Laws.EncodesInRow.wrDigest j x
  | .accRsvd14 dir => exact Laws.EncodesInRow.accRsvd14 dir
  | .accRsvd18 dir r => exact Laws.EncodesInRow.accRsvd18 dir r
  | .accRsvd20 dir r => exact Laws.EncodesInRow.accRsvd20 dir r
  | .accRsvdA0 dir r => exact Laws.EncodesInRow.accRsvdA0 dir r
  | .accRsvdC0 dir r => exact Laws.EncodesInRow.accRsvdC0 dir r
  | .accMisalignedOdd dir o => exact Laws.EncodesInRow.accMisalignedOdd dir o
  | .accMisalignedEven dir o => exact Laws.EncodesInRow.accMisalignedEven dir o
  | .accBadsizeNarrow dir sz o => exact Laws.EncodesInRow.accBadsizeNarrow dir sz o
  | .accBadsizeX dir o => exact Laws.EncodesInRow.accBadsizeX dir o

/-- Settles O12: the row of the decoded instruction is in the map and covers the descriptor, since encoding gives the
descriptor back; and no two rows of the map cover one descriptor. -/
theorem everyDescriptorHasOneRow : Obligations.EveryDescriptorHasOneRow := by
  intro a
  have hcovers : (decode a).row.covers a.d = true := by
    have h := row_covers_encode (decode a)
    rwa [(encodeOfDecode a).1] at h
  exact filter_eq_singleton_of_pairwise (opcodeTable_pairwise.imp fun h => not_covers_both h a.d)
    (row_mem_opcodeTable (decode a)) hcovers

/-- Settles O13: each word is checked by running the decoder. -/
theorem spelledWordsDecode : Obligations.SpelledWordsDecode := by
  unfold Obligations.SpelledWordsDecode
  decide

end Sys2Proof.Machine

namespace Sys2Proof.Machine

/-! ## An access without a cause (60_exceptions.md R162, R166, R168) -/

/-- The access is accepted: it clears ERR and ERRCODE if it is a CTRL write with CLRERR, and else it keeps them. -/
def AcceptedWithoutError (i : Instr) (s : State) : Prop :=
  ∃ t, exec i s = .next t ∧
    ((∃ x, i = .wrCtrl x ∧ x.getLsbD 2 = true ∧ t.err = false ∧ t.errcode = 0) ∨
      ((∀ x, i = .wrCtrl x → x.getLsbD 2 = false) ∧ t.err = s.err ∧ t.errcode = s.errcode))

/-- An accepted access other than a CTRL write keeps ERR and ERRCODE. -/
theorem acceptedWithoutError_of_keeps {i : Instr} {s t : State} (hne : ∀ x, i ≠ .wrCtrl x) (h : exec i s = .next t)
    (herr : t.err = s.err) (hcode : t.errcode = s.errcode) : AcceptedWithoutError i s :=
  ⟨t, h, .inr ⟨fun x hx => absurd hx (hne x), herr, hcode⟩⟩

theorem acceptedWithoutError_wrCtrl {s : State} {x : Word} (hres : ctrlReserved x = 0)
    (hcmd : s.busy = true → ctrlInit x = false ∧ ctrlStart x = false) : AcceptedWithoutError (.wrCtrl x) s := by
  refine ⟨s.runCommands x, exec_wrCtrl_of_accepted hres hcmd, ?_⟩
  cases hclr : ctrlClrerr x with
  | true => exact .inl ⟨x, rfl, hclr, by simp [hclr], by simp [hclr]⟩
  | false =>
    refine .inr ⟨fun y hy => ?_, by simp [hclr], by simp [hclr]⟩
    obtain rfl := Instr.wrCtrl.inj hy
    exact hclr

/-- The offsets left below the registers and the windows have the cause of code 3. -/
theorem inReservedRange_of_leftToReserved : ∀ off : BitVec 8, leftToReserved off → inReservedRange off := by
  unfold leftToReserved inReservedRange
  decide

section NoCause

variable {a : Access} {s : State} (hno : ∀ e, ¬ applies e a s)
include hno

/-- Without a cause, BUSY does not meet an access that touches the block. -/
theorem idle_of_no_cause (h : touchesBlock a) : s.busy = false :=
  Bool.eq_false_iff.mpr fun hb => hno .busyAccess ⟨hb, h⟩

/-- A read without a cause is of a register or of a window word, and it is not refused. -/
theorem decodeRead_accepted (halign : a.off.extractLsb' 0 2 = 0b00#2) (hread : a.isWrite = false) :
    AcceptedWithoutError (decodeRead a.off) s := by
  unfold decodeRead
  split_ifs with is0 is4 is8 isC is10 inMsg inDigest
  · exact acceptedWithoutError_of_keeps nofun rfl rfl rfl
  · exact acceptedWithoutError_of_keeps nofun rfl rfl rfl
  · exact acceptedWithoutError_of_keeps nofun rfl rfl rfl
  · exact acceptedWithoutError_of_keeps nofun rfl rfl rfl
  · have hidle := idle_of_no_cause hno (.inr ⟨hread, .inr is10⟩)
    exact acceptedWithoutError_of_keeps nofun (exec_rdDout_of_idle hidle) rfl rfl
  · exact acceptedWithoutError_of_keeps nofun rfl rfl rfl
  · have hidle := idle_of_no_cause hno (.inr ⟨hread, .inl inDigest⟩)
    exact acceptedWithoutError_of_keeps nofun (exec_rdDigest_of_idle hidle _) rfl rfl
  · have hleft : leftToReserved a.off := ⟨halign, is0, is4, is8, isC, is10, inMsg, inDigest⟩
    exact absurd (inReservedRange_of_leftToReserved a.off hleft) (hno .reservedOffset)

/-- A write without a cause is of CTRL, DIN or a MSG word, with its reserved bits 0 and no clash with BUSY. -/
theorem decodeWrite_accepted (halign : a.off.extractLsb' 0 2 = 0b00#2) (hwrite : a.isWrite = true) :
    AcceptedWithoutError (decodeWrite a.wdata a.off) s := by
  have hreadOnly : ¬ isReadOnly a.off := fun h => hno .readOnlyWrite ⟨hwrite, h⟩
  have hbits : ¬ setsReservedBits a := fun h => hno .reservedBits ⟨hwrite, h⟩
  unfold decodeWrite
  split_ifs with is0 is4 is8 isC is10 inMsg inDigest
  · have hres : ctrlReserved a.wdata = 0 := not_not.mp fun hne => hbits (.inl ⟨is0, hne⟩)
    refine acceptedWithoutError_wrCtrl hres fun hb => ?_
    have hcmd : ¬ (ctrlInit a.wdata = true ∨ ctrlStart a.wdata = true) :=
      fun h => hno .busyAccess ⟨hb, .inl ⟨hwrite, .inl ⟨is0, h⟩⟩⟩
    simpa using hcmd
  · exact absurd (.inl is4) hreadOnly
  · exact absurd (.inr (.inl is8)) hreadOnly
  · have hres : dinReserved a.wdata = 0 := not_not.mp fun hne => hbits (.inr ⟨isC, hne⟩)
    have hidle := idle_of_no_cause hno (.inl ⟨hwrite, .inr (.inr isC)⟩)
    exact acceptedWithoutError_of_keeps nofun (exec_wrDin_of_idle hres hidle) rfl rfl
  · exact absurd (.inr (.inr (.inl is10))) hreadOnly
  · have hidle := idle_of_no_cause hno (.inl ⟨hwrite, .inr (.inl inMsg)⟩)
    exact acceptedWithoutError_of_keeps nofun (exec_wrMsg_of_idle hidle _ _) rfl rfl
  · exact absurd (.inr (.inr (.inr inDigest))) hreadOnly
  · have hleft : leftToReserved a.off := ⟨halign, is0, is4, is8, isC, is10, inMsg, inDigest⟩
    exact absurd (inReservedRange_of_leftToReserved a.off hleft) (hno .reservedOffset)

end NoCause

/-- Settles O36: without a cause of code 1 or 2 the access is an aligned word access, and no row that its offset leads
to refuses it. -/
theorem noCauseNoError : Obligations.NoCauseNoError := by
  intro a s hno
  have hsize : a.size = 0b10#2 := not_not.mp (hno .badSize)
  have halign : a.off.extractLsb' 0 2 = 0b00#2 := not_not.mp (hno .misaligned)
  show AcceptedWithoutError (decode a) s
  rw [decode_of_word_aligned hsize halign]
  cases hw : a.isWrite with
  | true =>
    have hdir : a.dir = .write a.wdata := if_pos hw
    rw [hdir]
    exact decodeWrite_accepted hno halign hw
  | false =>
    have hdir : a.dir = .read := by simp [Access.dir, hw]
    rw [hdir]
    exact decodeRead_accepted hno halign hw

/-! ## A block in progress (42_scheduler.md R105, 43_compressor.md R120) -/

/-- The block m has been compressed into the digest state h, and CORE has no step left (43_compressor.md R117,
44_accumulator_serializer.md R127). -/
structure State.Finished (h : Digest) (m : Block) (s : State) : Prop where
  idle : s.busy = false
  invariant : s.Invariant
  valid : s.valid = true
  counter : s.t = 64
  digest : s.hs = addWorking h (compress h m)
  block : s.msg = m

theorem State.InBlock.withInbox {h : Digest} {m : Block} {s : State} (hs : s.InBlock h m) (l : List Event) :
    State.InBlock h m { s with inbox := l } :=
  ⟨hs.busy, hs.invariant, hs.digest, hs.block, hs.work, hs.words⟩

/-- START loads A..H from Hs and W[0..15] from MSG, so no round has run yet (43_compressor.md R113). -/
theorem State.start_inBlock {s : State} (hinv : s.start.Invariant) : s.start.InBlock s.hs s.msg where
  busy := s.start_busy
  invariant := hinv
  digest := s.start_hs
  block := s.start_msg
  work := by
    rw [State.start_work, State.start_t]
    exact congrArg some (afterRounds_zero s.hs s.msg).symm
  words i hi hlt := by
    have h16 : i < 16 := by simpa using hlt
    simp only [State.start_w, loadSchedule_getElem, dif_pos h16, schedule_getElem_of_lt s.msg i h16]

/-- Settles O52: the word 2 asks for START alone, and `State.start` loads what a block in progress holds. -/
theorem startPutsBlockInProgress : Obligations.StartPutsBlockInProgress := by
  intro s t hinv hidle h
  obtain rfl := next_inj ((exec_wrCtrl_start hidle).symm.trans h)
  exact State.start_inBlock (exec_invariant hinv h)

/-- HOST cannot disturb a block in progress (43_compressor.md R121, R122). -/
theorem exec_inBlock {h : Digest} {m : Block} {i : Instr} {s t : State} (hs : s.InBlock h m)
    (hexec : exec i s = .next t) : t.InBlock h m := by
  have hinv := exec_invariant hs.invariant hexec
  rw [exec_of_busy hs.busy hexec] at hinv ⊢
  exact ⟨hs.busy, hinv, hs.digest, hs.block, hs.work, hs.words⟩

/-- The word of round t is the schedule's word t (42_scheduler.md R104, R105). -/
theorem State.InBlock.roundWord {h : Digest} {m : Block} {s : State} (hs : s.InBlock h m) (hr : s.t.toNat < 64) :
    s.roundWord ⟨s.t.toNat, hr⟩ = some (schedule m)[s.t.toNat] := by
  by_cases h16 : 16 ≤ s.t.toNat
  · have word (j : Nat) (hj : j < s.t.toNat) : s.w[j] = some (schedule m)[j] := hs.words j (by omega) (by omega)
    rw [schedule_getElem_of_ge m s.t.toNat h16 hr]
    exact s.roundWord_of_sources ⟨s.t.toNat, hr⟩ h16 (word (s.t.toNat - 16) (by omega))
      (word (s.t.toNat - 15) (by omega)) (word (s.t.toNat - 7) (by omega)) (word (s.t.toNat - 2) (by omega))
  · rw [s.roundWord_early ⟨s.t.toNat, hr⟩ (by simpa using h16)]
    exact hs.words s.t.toNat hr (by omega)

/-- CORE's turn in a block in progress runs the next round, or accumulates and is done. -/
theorem coreStep_inBlock {h : Digest} {m : Block} {s t : State} (hs : s.InBlock h m) (hcore : coreStep s = .next t) :
    t.InBlock h m ∨ (s.t = 64 ∧ t.Finished h m) := by
  have hinv := coreStep_invariant hs.invariant hcore
  obtain ⟨hidle, -⟩ | ⟨hr, st, wt, -, hst, hwt, rfl⟩ | ⟨st, -, ht, hst, rfl⟩ := coreStep_cases hcore
  · exact absurd (hs.busy.symm.trans hidle) (by decide)
  · obtain rfl := Option.some.inj (hst.symm.trans hs.work)
    obtain rfl := Option.some.inj (hwt.symm.trans (hs.roundWord hr))
    refine .inl ⟨hs.busy, hinv, hs.digest, hs.block, ?work, fun i hi hlt => ?words⟩
    case work =>
      rw [State.afterRound_t, toNat_add_one_of_round hr, afterRounds_succ h m s.t.toNat hr]
      rfl
    case words =>
      rw [State.afterRound_t, toNat_add_one_of_round hr] at hlt
      rw [s.afterRound_w_getElem hr _ _ i hi]
      split
      next his => simp only [his.1]
      next hne => exact hs.words i hi (by omega)
  · obtain rfl := Option.some.inj (hst.symm.trans hs.work)
    refine .inr ⟨ht, rfl, hinv, rfl, ht, ?_, hs.block⟩
    rw [State.afterAccumulate_hs, hs.digest, ht]
    rfl

/-- Settles O53: HOST leaves the block alone, and CORE takes it a round further or finishes it. -/
theorem blockInProgressKept : Obligations.BlockInProgressKept := by
  intro h m s t hs hnoReset hstep
  obtain ⟨rest, ⟨a, -, -, hexec⟩ | ⟨hturn, -, hcore⟩ | ⟨hreset, -⟩⟩ := step_agents hstep
  · exact .inl (exec_inBlock (hs.withInbox rest) hexec)
  · obtain hkept | ⟨ht, hdone⟩ := coreStep_inBlock (hs.withInbox rest) hcore
    · exact .inl hkept
    · exact .inr ⟨ht, hturn, hdone.idle, hdone.valid, hdone.counter, hdone.digest, hdone.block⟩
  · exact absurd hreset hnoReset

end Sys2Proof.Machine

namespace Sys2Proof.Machine

/-! ## Several CORE turns (43_compressor.md R117) -/

/-- CORE's next n turns take s to t. -/
inductive CoreTurns : Nat → State → State → Prop where
  | zero (s : State) : CoreTurns 0 s s
  | succ {n : Nat} {s u t : State} : coreStep s = .next u → CoreTurns n u t → CoreTurns (n + 1) s t

/-- In a safe state CORE has as many turns as it is given. -/
theorem coreTurns_of_safe (n : Nat) {s : State} (hs : s.Safe) : ∃ t, CoreTurns n s t ∧ t.Safe := by
  induction n generalizing s with
  | zero => exact ⟨s, .zero s, hs⟩
  | succ n ih =>
    obtain ⟨u, hcore, hu⟩ := coreStep_of_safe hs
    obtain ⟨t, hturns, ht⟩ := ih hu
    exact ⟨t, .succ hcore hturns, ht⟩

/-- What every CORE turn keeps, any number of them keeps. -/
theorem CoreTurns.keeps {P : State → Prop} (hP : ∀ u v, P u → coreStep u = .next v → P v) {n : Nat} {s t : State}
    (h : CoreTurns n s t) (hs : P s) : P t := by
  induction h with
  | zero => exact hs
  | succ hcore _ ih => exact ih (hP _ _ hs hcore)

/-- What CORE has no write to. -/
theorem CoreTurns.frame {n : Nat} {s t : State} (h : CoreTurns n s t) :
    t.msg = s.msg ∧ t.err = s.err ∧ t.errcode = s.errcode ∧ t.dinptr = s.dinptr ∧ t.doutptr = s.doutptr ∧
      t.inbox = s.inbox ∧ t.rdata = s.rdata := by
  induction h with
  | zero => exact ⟨rfl, rfl, rfl, rfl, rfl, rfl, rfl⟩
  | succ hcore _ ih =>
    obtain ⟨hmsg, herr, hcode, hdin, hdout, hin, hrdata⟩ := coreStep_frame hcore
    rwa [hmsg, herr, hcode, hdin, hdout, hin, hrdata] at ih

theorem CoreTurns.eq_of_idle {n : Nat} {s t : State} (h : CoreTurns n s t) (hidle : s.busy = false) : t = s := by
  induction h with
  | zero => rfl
  | succ hcore _ ih =>
    obtain rfl := next_inj ((coreStep_of_idle hidle).symm.trans hcore)
    exact ih hidle

/-- How many turns CORE has left in its block: the rounds and the accumulation (43_compressor.md R117). -/
def State.turnsLeft (s : State) : Nat := if s.busy then 65 - s.t.toNat else 0

theorem State.turnsLeft_of_busy {s : State} (h : s.busy = true) : s.turnsLeft = 65 - s.t.toNat := if_pos h

theorem State.turnsLeft_of_idle {s : State} (h : s.busy = false) : s.turnsLeft = 0 := by
  simp [State.turnsLeft, h]

theorem State.turnsLeft_le (s : State) : s.turnsLeft ≤ 65 := by
  unfold State.turnsLeft
  split <;> omega

theorem State.turnsLeft_pos {s : State} (hinv : s.Invariant) (hb : s.busy = true) : 0 < s.turnsLeft := by
  have ht := hinv.1
  rw [State.turnsLeft_of_busy hb]
  omega

theorem coreStep_turnsLeft {s t : State} (h : coreStep s = .next t) : t.turnsLeft = s.turnsLeft - 1 := by
  obtain ⟨hidle, rfl⟩ | ⟨hr, st, wt, hb, -, -, rfl⟩ | ⟨st, hb, ht, -, rfl⟩ := coreStep_cases h
  · rw [State.turnsLeft_of_idle hidle]
  · have hb' : (s.afterRound ⟨s.t.toNat, hr⟩ st wt).busy = true := hb
    rw [State.turnsLeft_of_busy hb', State.turnsLeft_of_busy hb, State.afterRound_t, toNat_add_one_of_round hr]
    omega
  · rw [State.turnsLeft_of_busy hb, State.turnsLeft_of_idle rfl, ht]
    rfl

theorem CoreTurns.turnsLeft {n : Nat} {s t : State} (h : CoreTurns n s t) : t.turnsLeft = s.turnsLeft - n := by
  induction h with
  | zero => rfl
  | succ hcore _ ih => rw [ih, coreStep_turnsLeft hcore, Nat.sub_sub, Nat.add_comm]

/-- Enough turns end the block. -/
theorem CoreTurns.idle_of_le {n : Nat} {s t : State} (h : CoreTurns n s t) (ht : t.Invariant)
    (hn : s.turnsLeft ≤ n) : t.busy = false := by
  by_contra hb
  have hpos := State.turnsLeft_pos ht (by simpa using hb)
  have hleft := h.turnsLeft
  omega

/-- A run of the block goes on from the state its first step leaves. -/
theorem run_of_step {s t : State} (n : Nat) (h : step s = .next t) :
    Host.Core.run Sys2Proof.core (n + 1) s = Host.Core.run Sys2Proof.core n t :=
  run_succ Sys2Proof.core n h

/-- CORE events at the head of `inbox` are turns of CORE. -/
theorem CoreTurns.run {n : Nat} {s t : State} (h : CoreTurns n s t) (hinv : s.Invariant) (rest : List Event) :
    Host.Core.run Sys2Proof.core n ({ s with inbox := List.replicate n .core ++ rest } : State) =
      .next ({ t with inbox := rest } : State) := by
  induction h with
  | zero => rfl
  | @succ n s u t hcore _ ih =>
    have hturn := (stepGivesCoreItsTurn { s with inbox := List.replicate (n + 1) .core ++ rest } hinv).1
      (List.replicate n .core ++ rest) rfl
    have hstep := hturn.trans (coreStep_withInbox (List.replicate n .core ++ rest) hcore)
    exact (run_of_step n hstep).trans (ih (coreStep_invariant hinv hcore))

/-- CORE's turns before an access, and then the access. -/
theorem CoreTurns.issueAfter {n : Nat} {s t : State} (h : CoreTurns n s t) (hinv : s.Invariant) (st : Stmt) :
    issueAfter n st s = exec (decode (stmtAccess st)) t := by
  induction h with
  | zero => exact issueAfter_zero st hinv
  | @succ n s u t hcore _ ih =>
    have hin : u.inbox = s.inbox := by
      obtain ⟨-, -, -, -, -, hin, -⟩ := coreStep_frame hcore
      exact hin
    rw [issueAfter_succ n st hinv hcore hin]
    exact ih (coreStep_invariant hinv hcore)

/-! ## One block from START to the accumulation (44_accumulator_serializer.md R128) -/

/-- The block m of the digest state h is in progress, or it is done. -/
def State.HasBlock (h : Digest) (m : Block) (s : State) : Prop := s.InBlock h m ∨ s.Finished h m

theorem coreStep_hasBlock {h : Digest} {m : Block} {s t : State} (hs : s.HasBlock h m) (hcore : coreStep s = .next t) :
    t.HasBlock h m := by
  obtain hin | hdone := hs
  · exact (coreStep_inBlock hin hcore).imp_right And.right
  · obtain rfl := next_inj ((coreStep_of_idle hdone.idle).symm.trans hcore)
    exact .inr hdone

theorem State.HasBlock.finished {h : Digest} {m : Block} {s : State} (hs : s.HasBlock h m) (hidle : s.busy = false) :
    s.Finished h m :=
  hs.resolve_left fun hin => absurd (hin.busy.symm.trans hidle) (by decide)

/-- The pseudo-instruction START is the CTRL write with START alone (30_encoding.md R74). -/
theorem decode_pseudoStart : decode (stmtAccess pseudoStart) = .wrCtrl 0x00000002#32 := by decide

theorem State.start_invariant {s : State} (hinv : s.Invariant) (hidle : s.busy = false) : s.start.Invariant :=
  exec_invariant hinv (exec_wrCtrl_start hidle)

/-- Settles O54: START puts the block in progress with 65 turns left, and CORE keeps it until there are none. -/
theorem blockLaw : Obligations.BlockLaw := by
  intro s rest hinv hidle hin
  have hstart : step s = .next { s.start with inbox := List.replicate 65 .core ++ rest } := by
    have hexec := stepRunsIssuedAccess.1 s (stmtAccess pseudoStart) (List.replicate 65 .core ++ rest)
      (hin.trans (List.append_assoc _ _ _)) hinv
    rw [hexec, decode_pseudoStart]
    exact exec_wrCtrl_start hidle
  have hsafe : s.start.Safe := exec_safe (State.safe_of_idle hinv hidle) (exec_wrCtrl_start hidle)
  obtain ⟨t, hturns, ht⟩ := coreTurns_of_safe 65 hsafe
  obtain ⟨hmsg, herr, hcode, hdin, hdout, -, hrdata⟩ := hturns.frame
  have hblock : t.HasBlock s.hs s.msg :=
    hturns.keeps (fun _ _ => coreStep_hasBlock) (.inl (State.start_inBlock hsafe.invariant))
  have hdone := hblock.finished (hturns.idle_of_le ht.invariant s.start.turnsLeft_le)
  exact ⟨{ t with inbox := rest }, (run_of_step 65 hstart).trans (hturns.run hsafe.invariant rest),
    hdone.digest, hdone.idle, hdone.valid, hdone.counter, hmsg.trans s.start_msg, herr.trans s.start_err,
    hcode.trans s.start_errcode, hdin.trans s.start_dinptr, hdout.trans s.start_doutptr, rfl,
    hrdata.trans s.start_rdata⟩

/-! ## Host programs run against CORE turns (30_encoding.md R73, R78) -/

/-- An access of a program in a safe state: CORE has its turns, and then the access runs. -/
theorem runHost_access_of_safe (n : Nat) (turns : List Nat) (st : Stmt) (prog : List HostStmt) {s : State}
    (hs : s.Safe) : ∃ u t, CoreTurns n s u ∧ exec (decode (stmtAccess st)) u = .next t ∧ t.Safe ∧
      runHost (n :: turns) (.access st :: prog) s = runHost turns prog t := by
  obtain ⟨u, hturns, hu⟩ := coreTurns_of_safe n hs
  obtain ⟨t, hexec⟩ := exec_answers (decode (stmtAccess st)) u
  exact ⟨u, t, hturns, hexec, exec_safe hu hexec,
    runHost_access turns prog ((hturns.issueAfter hs.invariant st).trans hexec)⟩

theorem decode_pseudoPoll : decode (stmtAccess pseudoPoll) = .rdStatus := by decide

/-- What a poll leaves: the status word as the last one read (30_encoding.md R73). -/
def State.polled (s : State) : State := s.returnRead s.statusWord

theorem State.polled_readBusy (s : State) : s.polled.readBusy = s.busy := s.statusWord_flags.1

theorem State.Safe.polled {s : State} (hs : s.Safe) : s.polled.Safe :=
  exec_safe (i := .rdStatus) hs rfl

/-- A poll of a WAIT in a safe state: CORE has its turns, and BUSY decides whether the WAIT goes on. -/
theorem runHost_wait_of_safe (n : Nat) (turns : List Nat) {s : State} (hs : s.Safe) :
    ∃ u, CoreTurns n s u ∧ u.Safe ∧
      (u.busy = true → ∀ prog, runHost (n :: turns) (.wait :: prog) s = runHost turns (.wait :: prog) u.polled) ∧
      (u.busy = false → ∀ prog, runHost (n :: turns) (.wait :: prog) s = runHost turns prog u.polled) := by
  obtain ⟨u, hturns, hu⟩ := coreTurns_of_safe n hs
  have hpoll : Machine.issueAfter n pseudoPoll s = .next u.polled := by
    rw [hturns.issueAfter hs.invariant, decode_pseudoPoll]
    rfl
  exact ⟨u, hturns, hu, fun hb prog => runHost_wait_busy turns prog hpoll (u.polled_readBusy.trans hb),
    fun hb prog => runHost_wait_idle turns prog hpoll (u.polled_readBusy.trans hb)⟩

/-- No program stops the block (60_exceptions.md R161, R180). -/
theorem runHost_ne_stopped (turns : List Nat) (prog : List HostStmt) {s : State} (hs : s.Safe) :
    runHost turns prog s ≠ .stopped := by
  induction turns generalizing prog s with
  | nil => cases prog <;> simp
  | cons n turns ih =>
    match prog with
    | [] => simp
    | .access st :: prog =>
      obtain ⟨u, t, -, -, ht, hrun⟩ := runHost_access_of_safe n turns st prog hs
      rw [hrun]
      exact ih prog ht
    | .wait :: prog =>
      obtain ⟨u, -, hu, hbusy, hidle⟩ := runHost_wait_of_safe n turns hs
      cases hb : u.busy with
      | true =>
        rw [hbusy hb]
        exact ih (.wait :: prog) hu.polled
      | false =>
        rw [hidle hb]
        exact ih prog hu.polled

/-- What a WAIT that has ended leaves: whatever CORE's turns and the polls that found BUSY = 1 keep, and BUSY = 0 at
its last poll. -/
theorem runHost_wait_ended {P : State → Prop} (hcore : ∀ u v, P u → coreStep u = .next v → P v)
    (hpoll : ∀ u, P u → u.busy = true → P u.polled) {turns left : List Nat} {prog : List HostStmt} {s t : State}
    (hs : s.Safe) (hP : P s) (h : runHost turns (.wait :: prog) s = .ended left t) :
    ∃ mid u, u.Safe ∧ P u ∧ u.busy = false ∧ runHost mid prog u.polled = .ended left t := by
  induction turns generalizing s with
  | nil => simp at h
  | cons n turns ih =>
    obtain ⟨u, hturns, hu, hbusy, hidle⟩ := runHost_wait_of_safe n turns hs
    have hPu := hturns.keeps hcore hP
    cases hb : u.busy with
    | true => exact ih hu.polled (hpoll u hPu hb) ((hbusy hb prog).symm.trans h)
    | false => exact ⟨turns, u, hu, hPu, hb, (hidle hb prog).symm.trans h⟩

/-- CORE ends a block with VALID = 1 (10_state.md R21). -/
theorem coreStep_busy_or_valid {s t : State} (hs : s.busy = true ∨ s.valid = true) (h : coreStep s = .next t) :
    t.busy = true ∨ t.valid = true := by
  obtain ⟨-, hb, hv⟩ | ⟨-, -, hv⟩ := coreStep_keeps_or_accumulates h
  · rwa [hb, hv]
  · exact .inr hv

/-- A WAIT ends when CORE has the turns that its block has left; the polls before its last one fall between fewer
turns than those. -/
theorem runHost_wait_ends {turns : List Nat} {s : State} (hs : s.Safe) (hne : turns ≠ [])
    (hsum : s.turnsLeft ≤ turns.sum) :
    ∃ (polls : List Nat) (n : Nat) (left : List Nat) (u : State), turns = polls ++ n :: left ∧ polls.sum ≤ s.turnsLeft - 1 ∧ u.Safe ∧
      (s.busy = true ∨ s.valid = true → u.valid = true) ∧
      ∀ prog, runHost turns (.wait :: prog) s = runHost left prog u.polled := by
  induction turns generalizing s with
  | nil => exact absurd rfl hne
  | cons n turns ih =>
    obtain ⟨u, hturns, hu, hbusy, hidle⟩ := runHost_wait_of_safe n turns hs
    have hkeep : s.busy = true ∨ s.valid = true → u.busy = true ∨ u.valid = true :=
      hturns.keeps fun _ _ => coreStep_busy_or_valid
    cases hb : u.busy with
    | false => exact ⟨[], n, turns, u, rfl, Nat.zero_le _, hu, fun h => by simpa [hb] using hkeep h, hidle hb⟩
    | true =>
      have hleft := hturns.turnsLeft
      have hpos := State.turnsLeft_pos hu.invariant hb
      have hpolled : u.polled.turnsLeft = u.turnsLeft := rfl
      rw [List.sum_cons] at hsum
      have hne' : turns ≠ [] := by
        rintro rfl
        rw [List.sum_nil] at hsum
        omega
      obtain ⟨polls, k, left, v, rfl, hpolls, hv, hvalid, hrun⟩ := ih hu.polled hne' (by omega)
      refine ⟨n :: polls, k, left, v, rfl, ?_, hv, fun _ => hvalid (.inl hb),
        fun prog => (hbusy hb prog).trans (hrun prog)⟩
      rw [List.sum_cons]
      omega

/-- The reads of a WAIT, the latest first: each that found BUSY = 1 has bit 0 set. -/
def State.PolledSince (s t : State) : Prop :=
  t.inbox = s.inbox ∧ ∃ earlier : List Word, t.rdata = earlier ++ s.rdata ∧ ∀ v ∈ earlier, v.getLsbD 0 = true

theorem State.PolledSince.coreStep {s t u : State} (h : s.PolledSince t) (hcore : coreStep t = .next u) :
    s.PolledSince u := by
  obtain ⟨-, -, -, -, -, hin, hrdata⟩ := coreStep_frame hcore
  unfold State.PolledSince
  rwa [hin, hrdata]

theorem State.PolledSince.polled {s t : State} (h : s.PolledSince t) (hb : t.busy = true) : s.PolledSince t.polled := by
  obtain ⟨hin, earlier, hrdata, hbits⟩ := h
  refine ⟨hin, t.statusWord :: earlier, congrArg (t.statusWord :: ·) hrdata, ?_⟩
  exact List.forall_mem_cons.mpr ⟨t.statusWord_flags.1.trans hb, hbits⟩

/-- Settles O55: the polls read BUSY in bit 0, and BUSY falls when CORE has had the turns its block has left. -/
theorem waitEnds : Obligations.WaitEnds := by
  refine fun s turns hs => ⟨runHost_ne_stopped turns [.wait] hs, fun left t h => ?ended, fun hb hsum => ?ends⟩
  case ended =>
    have hstart : s.PolledSince s := ⟨rfl, [], rfl, List.forall_mem_nil _⟩
    obtain ⟨mid, u, -, ⟨hin, earlier, hrdata, hbits⟩, hidle, hrun⟩ :=
      runHost_wait_ended (fun _ _ => State.PolledSince.coreStep) (fun _ => State.PolledSince.polled) hs hstart h
    rw [runHost_nil] at hrun
    cases hrun
    exact ⟨hidle, hin, u.statusWord, earlier, congrArg (u.statusWord :: ·) hrdata,
      u.statusWord_flags.1.trans hidle, hbits⟩
  case ends =>
    have hne : turns ≠ [] := by
      rintro rfl
      exact absurd hsum (by decide)
    obtain ⟨-, -, left, u, -, -, -, hvalid, hrun⟩ := runHost_wait_ends hs hne (s.turnsLeft_le.trans hsum)
    exact ⟨left, u.polled, (hrun []).trans (runHost_nil left u.polled), hvalid (.inl hb)⟩

theorem mostAccesses_cons (stmt : HostStmt) (prog : List HostStmt) :
    mostAccesses (stmt :: prog) = stmt.mostAccesses + mostAccesses prog :=
  List.sum_cons

/-- Every program ends when CORE has a turn before each of its accesses (43_compressor.md R118). -/
theorem runHost_ends {turns : List Nat} {prog : List HostStmt} {s : State} (hs : s.Safe) (hone : ∀ n ∈ turns, 1 ≤ n)
    (hlen : mostAccesses prog ≤ turns.length) : ∃ left t, runHost turns prog s = .ended left t := by
  induction prog generalizing turns s with
  | nil => exact ⟨turns, s, runHost_nil turns s⟩
  | cons stmt prog ih =>
    rw [mostAccesses_cons] at hlen
    match stmt with
    | .access st =>
      obtain ⟨n, turns, rfl⟩ := List.exists_cons_of_length_pos (Nat.lt_of_lt_of_le (by simp [HostStmt.mostAccesses]) hlen)
      obtain ⟨-, t, -, -, ht, hrun⟩ := runHost_access_of_safe n turns st prog hs
      rw [hrun]
      refine ih ht (fun k hk => hone k (.tail n hk)) ?_
      simp only [HostStmt.mostAccesses, List.length_cons] at hlen
      omega
    | .wait =>
      simp only [HostStmt.mostAccesses] at hlen
      have hsum : turns.length ≤ turns.sum := List.length_le_sum_of_one_le turns hone
      have hleft := s.turnsLeft_le
      have hne : turns ≠ [] := by
        rintro rfl
        rw [List.length_nil] at hlen
        omega
      obtain ⟨polls, n, left, u, rfl, hpolls, hu, -, hrun⟩ := runHost_wait_ends hs hne (by omega)
      rw [hrun]
      have hpollslen : polls.length ≤ polls.sum :=
        List.length_le_sum_of_one_le polls fun k hk => hone k (List.mem_append_left _ hk)
      refine ih hu.polled (fun k hk => hone k (List.mem_append_right _ (.tail n hk))) ?_
      simp only [List.length_append, List.length_cons] at hlen
      omega

end Sys2Proof.Machine

namespace Sys2Proof.Machine

/-! ## Accesses that an idle block accepts one after another (30_encoding.md R75, R76) -/

/-- An idle block accepts each statement `f x`, with the effect `g · x`, and stays idle; the effect does not bear on
the events to come. -/
structure IdleEffect {α : Type} (f : α → Stmt) (g : State → α → State) : Prop where
  exec_eq : ∀ (s : State) (x : α), s.busy = false → exec (decode (stmtAccess (f x))) s = .next (g s x)
  idle : ∀ (s : State) (x : α), s.busy = false → (g s x).busy = false
  withInbox : ∀ (s : State) (x : α) (l : List Event), g { s with inbox := l } x = { g s x with inbox := l }

namespace IdleEffect

variable {α : Type} {f : α → Stmt} {g : State → α → State} (h : IdleEffect f g)
include h

theorem invariant {s : State} (hinv : s.Invariant) (hidle : s.busy = false) (x : α) : (g s x).Invariant :=
  exec_invariant hinv (h.exec_eq s x hidle)

/-- The accesses placed in `inbox` run as the effects one after another. -/
theorem run (xs : List α) {s : State} {rest : List Event} (hinv : s.Invariant) (hidle : s.busy = false)
    (hin : s.inbox = stmtEvents (xs.map f) ++ rest) :
    Host.Core.run Sys2Proof.core xs.length s = .next (xs.foldl g { s with inbox := rest }) := by
  induction xs generalizing s with
  | nil =>
    have hrest : s.inbox = rest := hin
    subst hrest
    rfl
  | cons x xs ih =>
    have hstep : step s = .next (g { s with inbox := stmtEvents (xs.map f) ++ rest } x) :=
      (stepRunsIssuedAccess.1 s (stmtAccess (f x)) (stmtEvents (xs.map f) ++ rest) hin hinv).trans
        (h.exec_eq _ x hidle)
    rw [h.withInbox] at hstep
    have hfold : (x :: xs).foldl g { s with inbox := rest } = xs.foldl g { g s x with inbox := rest } := by
      rw [List.foldl_cons, h.withInbox]
    have hrest := ih (s := { g s x with inbox := stmtEvents (xs.map f) ++ rest }) (h.invariant hinv hidle x)
      (h.idle s x hidle) rfl
    exact ((run_of_step xs.length hstep).trans hrest).trans (congrArg Host.Outcome.next hfold.symm)

/-- In a program the CORE turns before the accesses pass, and the accesses run as the effects. -/
theorem runHost_ended (xs : List α) {turns left : List Nat} {prog : List HostStmt} {s t : State}
    (hinv : s.Invariant) (hidle : s.busy = false)
    (hrun : runHost turns ((xs.map f).map .access ++ prog) s = .ended left t) :
    ∃ mid, runHost mid prog (xs.foldl g s) = .ended left t := by
  induction xs generalizing turns s with
  | nil => exact ⟨turns, hrun⟩
  | cons x xs ih =>
    cases turns with
    | nil => simp at hrun
    | cons n turns =>
      obtain ⟨u, v, hturns, hexec, -, hgo⟩ :=
        runHost_access_of_safe n turns (f x) ((xs.map f).map .access ++ prog) (State.safe_of_idle hinv hidle)
      obtain rfl := hturns.eq_of_idle hidle
      obtain rfl := next_inj ((h.exec_eq u x hidle).symm.trans hexec)
      exact ih (h.invariant hinv hidle x) (h.idle u x hidle) (hgo.symm.trans hrun)

end IdleEffect

/-! ## LOADBLK (30_encoding.md R75) -/

theorem decode_loadWord (m : Block) (i : Fin 16) :
    decode (stmtAccess (.wr .word (.msg i.val) m[i].toNat)) = .wrMsg i m[i] := by
  have hd : ∀ i : Fin 16, descriptor true 0b10#2 (BitVec.ofNat 8 (0x40 + 4 * i.val)) =
      BitVec.ofNat 11 (0x640 + 4 * i.val) := by decide
  have hacc : stmtAccess (.wr .word (.msg i.val) m[i].toNat) = ⟨BitVec.ofNat 11 (0x640 + 4 * i.val), m[i]⟩ := by
    simp only [stmtAccess, accessTo, sizeOfWidth, operandOffset, hd i, BitVec.ofNat_toNat, BitVec.setWidth_eq]
  rw [hacc, decode_wrMsg]

theorem loadWord_idleEffect (m : Block) :
    IdleEffect (fun i : Fin 16 => .wr .word (.msg i.val) m[i].toNat) (fun s i => s.storeMsg i m[i]) where
  exec_eq s i hidle := by
    rw [decode_loadWord]
    exact exec_wrMsg_of_idle hidle i m[i]
  idle _ _ hidle := hidle
  withInbox _ _ _ := rfl

/-- Storing some words of a block stores them in MSG, and nothing else. -/
theorem foldl_storeMsg (m : Block) (xs : List (Fin 16)) (s : State) :
    ∃ m' : Block, xs.foldl (fun s i => s.storeMsg i m[i]) s = { s with msg := m' } ∧
      ∀ j : Fin 16, m'[j] = if j ∈ xs then m[j] else s.msg[j] := by
  induction xs generalizing s with
  | nil => exact ⟨s.msg, rfl, fun j => (if_neg List.not_mem_nil).symm⟩
  | cons i xs ih =>
    obtain ⟨m', hfold, hm'⟩ := ih (s.storeMsg i m[i])
    refine ⟨m', hfold, fun j => (hm' j).trans ?_⟩
    rw [State.storeMsg_msg, block_getElem_set]
    by_cases hj : j ∈ xs
    · rw [if_pos hj, if_pos (List.mem_cons_of_mem i hj)]
    · by_cases hji : j = i
      · rw [if_neg hj, if_pos hji, if_pos (List.mem_cons.mpr (.inl hji)), hji]
      · rw [if_neg hj, if_neg hji, if_neg (by simp [hj, hji])]

theorem foldl_loadblk (m : Block) (s : State) :
    (List.finRange 16).foldl (fun s i => s.storeMsg i m[i]) s = { s with msg := m } := by
  obtain ⟨m', hfold, hm'⟩ := foldl_storeMsg m (List.finRange 16) s
  have hall : m' = m := Vector.ext fun j hj => (hm' ⟨j, hj⟩).trans (if_pos (List.mem_finRange _))
  rw [hfold, hall]

/-- Settles O24: the sixteen writes cover every word of MSG. -/
theorem loadblkLoadsBlock : Obligations.LoadblkLoadsBlock := by
  intro s m rest hinv hidle hin
  exact ((loadWord_idleEffect m).run (List.finRange 16) hinv hidle hin).trans
    (congrArg Host.Outcome.next (foldl_loadblk m _))

/-! ## LOADBYTES (30_encoding.md R75) -/

/-- The access of a byte's statement is a DIN write whose bits 31:8 are 0. -/
theorem decode_loadByte (b : Byte) : decode (stmtAccess (.wr .word .din b.toNat)) = .wrDin (b.setWidth 32) := by
  have hd : descriptor true 0b10#2 0x0C#8 = 0x60C#11 := by decide
  have hacc : stmtAccess (.wr .word .din b.toNat) = ⟨0x60C#11, b.setWidth 32⟩ := by
    simp only [stmtAccess, accessTo, sizeOfWidth, operandOffset, hd, BitVec.ofNat_toNat]
  rw [hacc, decode_wrDin]

theorem loadByte_idleEffect (B : Vector Byte 64) :
    IdleEffect (fun p : Fin 64 => .wr .word .din B[p].toNat) (fun s p => s.storeDinByte B[p]) where
  exec_eq s p hidle := by
    have hbyte : dinByte (B[p].setWidth 32) = B[p] := extractLsb'_low_setWidth B[p]
    rw [decode_loadByte, exec_wrDin_of_idle (extractLsb'_high_setWidth B[p]) hidle, hbyte]
  idle _ _ hidle := hidle
  withInbox _ _ _ := rfl

/-- The first k bytes from DINPTR = 0 are stored in order, and the others stay (45_host_access.md R140). -/
theorem foldl_storeDinByte (B : Vector Byte 64) {s : State} (hptr : s.dinptr = 0) (k : Nat) (hk : k ≤ 64) :
    ∃ m : Block, ((List.finRange 64).take k).foldl (fun s p => s.storeDinByte B[p]) s =
        { s with msg := m, dinptr := BitVec.ofNat 6 k } ∧
      ∀ q : BitVec 6, blockByte m q = if q.toNat < k then B[q.toNat] else blockByte s.msg q := by
  induction k with
  | zero =>
    have hzero : s.dinptr = 0#6 := hptr
    exact ⟨s.msg, by rw [← hzero]; rfl, fun q => rfl⟩
  | succ k ih =>
    obtain ⟨m, hfold, hm⟩ := ih (by omega)
    have hlen : k < (List.finRange 64).length := by simpa using hk
    refine ⟨setBlockByte m (BitVec.ofNat 6 k) B[k], ?_, fun q => ?_⟩
    · rw [List.take_succ_eq_append_getElem hlen, List.foldl_append, hfold, List.getElem_finRange]
      have hnext : BitVec.ofNat 6 k + 1 = BitVec.ofNat 6 (k + 1) := (BitVec.ofNat_add k 1).symm
      rw [← hnext]
      rfl
    · have hq : q = BitVec.ofNat 6 k ↔ q.toNat = k := by
        rw [← BitVec.toNat_inj, BitVec.toNat_ofNat, Nat.mod_eq_of_lt (by omega)]
      rw [blockByte_setBlockByte, hm q]
      by_cases hqk : q.toNat = k
      · subst hqk
        rw [if_pos (hq.mpr rfl), if_pos (Nat.lt_succ_self _)]
        rfl
      · rw [if_neg (fun e => hqk (hq.mp e))]
        exact if_congr (by omega) rfl rfl

/-- The bytes of a word made of four bytes, the first of them the most significant (20_memory.md R47). -/
theorem extractLsb'_of_append_bytes (a b c d : Byte) :
    (a ++ b ++ c ++ d).extractLsb' 24 8 = a ∧ (a ++ b ++ c ++ d).extractLsb' 16 8 = b ∧
      (a ++ b ++ c ++ d).extractLsb' 8 8 = c ∧ (a ++ b ++ c ++ d).extractLsb' 0 8 = d := by
  refine ⟨?_, ?_, ?_, ?_⟩ <;>
    simp (disch := decide) only [BitVec.extractLsb'_append_eq_of_le, BitVec.extractLsb'_append_eq_right,
      BitVec.extractLsb'_eq_self, Nat.reduceSub]

/-- Byte k of word q of `BlockWords(B)` is byte 4q+k of B (42_scheduler.md R98). -/
theorem wordByte_blockWords (B : Vector Byte 64) (q : Fin 16) (k : Fin 4) :
    wordByte (blockWords B)[q] k = B[4 * q.val + k.val] := by
  obtain ⟨h0, h1, h2, h3⟩ :=
    extractLsb'_of_append_bytes B[4 * q.val] B[4 * q.val + 1] B[4 * q.val + 2] B[4 * q.val + 3]
  rw [Fin.getElem_fin, blockWords_getElem B q.val q.isLt]
  match k with
  | 0 => exact h0
  | 1 => exact h1
  | 2 => exact h2
  | 3 => exact h3

/-- A block is its bytes. -/
theorem block_eq_of_wordByte {m m' : Block} (h : ∀ (q : Fin 16) (k : Fin 4), wordByte m[q] k = wordByte m'[q] k) :
    m = m' := by
  refine Vector.ext fun q hq => ?_
  have hbyte := h ⟨q, hq⟩
  rw [← wordByte_append m[q], ← wordByte_append m'[q]]
  exact congr (congrArg _ (congr (congrArg _ (congr (congrArg _ (hbyte 0)) (hbyte 1))) (hbyte 2))) (hbyte 3)

theorem foldl_loadbytes (B : Vector Byte 64) {s : State} (hptr : s.dinptr = 0) :
    (List.finRange 64).foldl (fun s p => s.storeDinByte B[p]) s = { s with msg := blockWords B } := by
  obtain ⟨m, hfold, hm⟩ := foldl_storeDinByte B hptr 64 (Nat.le_refl 64)
  have hwords : m = blockWords B := block_eq_of_wordByte fun q k => by
    have hlt : 4 * q.val + k.val < 64 := by omega
    have hnat : (BitVec.ofNat 6 (4 * q.val + k.val)).toNat = 4 * q.val + k.val := by
      rw [BitVec.toNat_ofNat, Nat.mod_eq_of_lt hlt]
    rw [wordByte_blockWords, ← blockByte_ofNat_word, hm, if_pos (BitVec.isLt _)]
    simp only [hnat]
  rw [List.take_of_length_le (by simp)] at hfold
  rw [hfold, hwords, hptr]
  rfl

/-- Settles O23: 64 writes from DINPTR = 0 set every byte of the block, and the six bits of DINPTR count to 0 again. -/
theorem loadbytesLoadsBlockWords : Obligations.LoadbytesLoadsBlockWords := by
  intro s B rest hinv hidle hptr hin
  exact ((loadByte_idleEffect B).run (List.finRange 64) hinv hidle hin).trans
    (congrArg Host.Outcome.next (foldl_loadbytes B hptr))

/-! ## READBYTES and READDIGEST (30_encoding.md R76) -/

theorem readByte_idleEffect :
    IdleEffect (fun _ : Fin 32 => .rd .word .dout) (fun s _ => s.readDoutByte) where
  exec_eq _ _ hidle := (congrArg (exec · _) (decode_rdDout 0)).trans (exec_rdDout_of_idle hidle)
  idle _ _ hidle := hidle
  withInbox _ _ _ := rfl

/-- k reads from DOUTPTR = 0 return the first k bytes of the serialised digest (44_accumulator_serializer.md R131). -/
theorem iterate_readDoutByte {s : State} (hptr : s.doutptr = 0) (k : Nat) (hk : k ≤ 32) :
    State.readDoutByte^[k] s = { s with
      doutptr := BitVec.ofNat 5 k
      rdata := (((serialize s.hs).toList.take k).map fun y => y.setWidth 32).reverse ++ s.rdata } := by
  induction k with
  | zero =>
    have hzero : s.doutptr = 0#5 := hptr
    rw [← hzero]
    rfl
  | succ k ih =>
    have hlen : k < (serialize s.hs).toList.length := by simpa using hk
    have hnext : BitVec.ofNat 5 k + 1 = BitVec.ofNat 5 (k + 1) := (BitVec.ofNat_add k 1).symm
    have hbyte : digestByte s.hs (BitVec.ofNat 5 k) = (serialize s.hs).toList[k] := by
      rw [Vector.getElem_toList, serialize_getElem]
    rw [Function.iterate_succ_apply', ih (by omega), List.take_succ_eq_append_getElem hlen, List.map_append,
      List.reverse_append, ← hnext, ← hbyte]
    rfl

theorem pseudoReadbytes_eq : pseudoReadbytes = (List.finRange 32).map fun _ => .rd .word .dout := by decide

theorem foldl_readbytes {s : State} (hptr : s.doutptr = 0) :
    (List.finRange 32).foldl (fun s _ => s.readDoutByte) s =
      { s with rdata := ((serialize s.hs).toList.map fun y => y.setWidth 32).reverse ++ s.rdata } := by
  rw [List.foldl_const, List.length_finRange, iterate_readDoutByte hptr 32 (Nat.le_refl 32),
    List.take_of_length_le (by simp), hptr]
  rfl

/-- Settles O20: 32 reads from DOUTPTR = 0 return every byte, and the five bits of DOUTPTR count to 0 again. -/
theorem readbytesSerialisesDigest : Obligations.ReadbytesSerialisesDigest := by
  intro s rest hinv hidle hptr hin
  rw [pseudoReadbytes_eq] at hin
  exact (readByte_idleEffect.run (List.finRange 32) hinv hidle hin).trans
    (congrArg Host.Outcome.next (foldl_readbytes hptr))

end Sys2Proof.Machine

namespace Sys2Proof.Machine

/-! ## START and WAIT in a program (30_encoding.md R73, R77) -/

/-- u is s with its block m begun: in progress or done, with the pointers at 0 and no error recorded since. -/
structure State.BlockFrom (s : State) (m : Block) (u : State) : Prop where
  block : u.HasBlock s.hs m
  err : u.err = s.err
  errcode : u.errcode = s.errcode
  dinptr : u.dinptr = 0
  doutptr : u.doutptr = 0
  inbox : u.inbox = s.inbox

theorem State.blockFrom_start {s : State} (hinv : s.Invariant) (hidle : s.busy = false) : s.BlockFrom s.msg s.start where
  block := .inl (State.start_inBlock (State.start_invariant hinv hidle))
  err := s.start_err
  errcode := s.start_errcode
  dinptr := s.start_dinptr
  doutptr := s.start_doutptr
  inbox := s.start_inbox

theorem State.BlockFrom.coreStep {s u v : State} {m : Block} (h : s.BlockFrom m u) (hcore : coreStep u = .next v) :
    s.BlockFrom m v := by
  obtain ⟨-, herr, hcode, hdin, hdout, hin, -⟩ := coreStep_frame hcore
  exact ⟨coreStep_hasBlock h.block hcore, herr.trans h.err, hcode.trans h.errcode, hdin.trans h.dinptr,
    hdout.trans h.doutptr, hin.trans h.inbox⟩

theorem State.HasBlock.polled {h : Digest} {m : Block} {u : State} (hu : u.HasBlock h m) : u.polled.HasBlock h m := by
  obtain hin | hdone := hu
  · exact .inl (exec_inBlock (i := .rdStatus) hin rfl)
  · exact .inr ⟨hdone.idle, hdone.invariant, hdone.valid, hdone.counter, hdone.digest, hdone.block⟩

theorem State.BlockFrom.polled {s u : State} {m : Block} (h : s.BlockFrom m u) : s.BlockFrom m u.polled :=
  ⟨h.block.polled, h.err, h.errcode, h.dinptr, h.doutptr, h.inbox⟩

/-- An access of a program in an idle state: the CORE turns before it pass, and it runs. -/
theorem runHost_access_of_idle {turns left : List Nat} {st : Stmt} {prog : List HostStmt} {s t v : State}
    (hinv : s.Invariant) (hidle : s.busy = false) (hexec : exec (decode (stmtAccess st)) s = .next v)
    (h : runHost turns (.access st :: prog) s = .ended left t) : ∃ mid, runHost mid prog v = .ended left t := by
  cases turns with
  | nil => simp at h
  | cons n turns =>
    obtain ⟨u, w, hturns, hw, -, hrun⟩ := runHost_access_of_safe n turns st prog (State.safe_of_idle hinv hidle)
    obtain rfl := hturns.eq_of_idle hidle
    obtain rfl := next_inj (hexec.symm.trans hw)
    exact ⟨turns, hrun.symm.trans h⟩

/-- START and a WAIT that has ended compress the block in MSG into the digest state. -/
theorem runHost_startWait_ended {turns left : List Nat} {prog : List HostStmt} {s t : State} (hinv : s.Invariant)
    (hidle : s.busy = false) (h : runHost turns (.access pseudoStart :: .wait :: prog) s = .ended left t) :
    ∃ mid u, s.BlockFrom s.msg u ∧ u.busy = false ∧ runHost mid prog u = .ended left t := by
  have hexec : exec (decode (stmtAccess pseudoStart)) s = .next s.start := by
    rw [decode_pseudoStart]
    exact exec_wrCtrl_start hidle
  obtain ⟨mid, hwait⟩ := runHost_access_of_idle hinv hidle hexec h
  obtain ⟨mid', u, -, hu, hdone, hrun⟩ := runHost_wait_ended (P := s.BlockFrom s.msg)
    (fun _ _ => State.BlockFrom.coreStep) (fun _ hu _ => hu.polled) (exec_safe (State.safe_of_idle hinv hidle) hexec)
    (State.blockFrom_start hinv hidle) hwait
  exact ⟨mid', u.polled, hu.polled, hdone, hrun⟩

/-- Settles O56: the sixteen writes leave m in MSG, START and the WAIT compress it, and a program with enough turns
ends. -/
theorem blockPseudoCompresses : Obligations.BlockPseudoCompresses := by
  refine fun s m turns hinv hidle => ⟨fun left t h => ?ended, fun hone hlen =>
    runHost_ends (State.safe_of_idle hinv hidle) hone hlen⟩
  case ended =>
    obtain ⟨mid, hloaded⟩ := (loadWord_idleEffect m).runHost_ended (List.finRange 16) hinv hidle h
    rw [foldl_loadblk] at hloaded
    obtain ⟨mid', u, hu, hdone, hrun⟩ := runHost_startWait_ended (s := { s with msg := m }) hinv hidle hloaded
    rw [runHost_nil] at hrun
    cases hrun
    have hfin := hu.block.finished hdone
    exact ⟨hfin.digest, hfin.block, hdone, hfin.valid, hfin.counter, hu.err, hu.errcode, hu.dinptr, hu.doutptr, hu.inbox⟩

/-! ## The sequence for one digest (41_padding_host.md R95) -/

/-- Either way of loading leaves the block's words in MSG (41_padding_host.md R95 step 3). -/
theorem runHost_load_ended (form : LoadForm) (B : Vector Byte 64) {turns left : List Nat} {prog : List HostStmt}
    {s t : State} (hinv : s.Invariant) (hidle : s.busy = false) (hptr : s.dinptr = 0)
    (h : runHost turns ((pseudoLoad form B).map .access ++ prog) s = .ended left t) :
    ∃ mid, runHost mid prog { s with msg := blockWords B } = .ended left t := by
  cases form with
  | words =>
    rw [← foldl_loadblk (blockWords B) s]
    exact (loadWord_idleEffect (blockWords B)).runHost_ended (List.finRange 16) hinv hidle h
  | bytes =>
    rw [← foldl_loadbytes B hptr]
    exact (loadByte_idleEffect B).runHost_ended (List.finRange 64) hinv hidle h

/-- u is idle with the blocks ms compressed into the digest state of s, ready for the next block or for reading. -/
structure State.ChainFrom (s : State) (ms : List Block) (u : State) : Prop where
  idle : u.busy = false
  invariant : u.Invariant
  digest : u.hs = chain s.hs ms
  err : u.err = s.err
  errcode : u.errcode = s.errcode
  dinptr : u.dinptr = 0
  doutptr : u.doutptr = 0
  inbox : u.inbox = s.inbox

/-- A block that is done is one more link of the chain (44_accumulator_serializer.md R128). -/
theorem State.BlockFrom.chainFrom {s u v : State} {m : Block} {ms : List Block} (hu : s.BlockFrom m u)
    (hidle : u.busy = false) (hv : u.ChainFrom ms v) : s.ChainFrom (m :: ms) v where
  idle := hv.idle
  invariant := hv.invariant
  digest := by rw [hv.digest, (hu.block.finished hidle).digest, chain]
  err := hv.err.trans hu.err
  errcode := hv.errcode.trans hu.errcode
  dinptr := hv.dinptr
  doutptr := hv.doutptr
  inbox := hv.inbox.trans hu.inbox

/-- The blocks of the sequence, each loaded in either way, are compressed one after another. -/
theorem runHost_blocks_ended (blocks : List (LoadForm × Vector Byte 64)) {turns left : List Nat}
    {prog : List HostStmt} {s t : State} (hinv : s.Invariant) (hidle : s.busy = false) (hdin : s.dinptr = 0)
    (hdout : s.doutptr = 0)
    (h : runHost turns (blocks.flatMap (fun b => blockProgram b.1 b.2) ++ prog) s = .ended left t) :
    ∃ mid u, s.ChainFrom (blocks.map fun b => blockWords b.2) u ∧ runHost mid prog u = .ended left t := by
  induction blocks generalizing turns s with
  | nil => exact ⟨turns, s, ⟨hidle, hinv, rfl, rfl, rfl, hdin, hdout, rfl⟩, h⟩
  | cons b blocks ih =>
    rw [List.flatMap_cons, blockProgram, List.append_assoc, List.append_assoc] at h
    obtain ⟨mid, hloaded⟩ := runHost_load_ended b.1 b.2 hinv hidle hdin h
    obtain ⟨mid', u, hu, hdone, hrest⟩ :=
      runHost_startWait_ended (s := { s with msg := blockWords b.2 }) hinv hidle hloaded
    have hfin := hu.block.finished hdone
    obtain ⟨mid'', v, hv, hrun⟩ := ih hfin.invariant hdone hu.dinptr hu.doutptr hrest
    have hlink := hu.chainFrom hdone hv
    exact ⟨mid'', v, ⟨hlink.idle, hlink.invariant, hlink.digest, hlink.err, hlink.errcode, hlink.dinptr, hlink.doutptr,
      hlink.inbox⟩, hrun⟩

/-! ### Reading the digest (41_padding_host.md R95 step 4) -/

theorem readWord_idleEffect :
    IdleEffect (fun j : Fin 8 => .rd .word (.digest j.val)) (fun s j => s.returnRead s.hs[j]) where
  exec_eq s j hidle := by
    have hd : ∀ j : Fin 8, stmtAccess (.rd .word (.digest j.val)) = ⟨BitVec.ofNat 11 (0x280 + 4 * j.val), 0⟩ := by
      decide
    rw [hd j, decode_rdDigest]
    exact exec_rdDigest_of_idle hidle j
  idle _ _ hidle := hidle
  withInbox _ _ _ := rfl

theorem foldl_readWord (xs : List (Fin 8)) (s : State) :
    xs.foldl (fun s j => s.returnRead s.hs[j]) s =
      { s with rdata := (xs.map fun j => s.hs[j]).reverse ++ s.rdata } := by
  induction xs generalizing s with
  | nil => rfl
  | cons j xs ih =>
    rw [List.foldl_cons, ih, List.map_cons, List.reverse_cons, List.append_assoc]
    rfl

theorem pseudoReaddigest_eq :
    pseudoReaddigest = (List.finRange 8).map fun j : Fin 8 => .rd .word (.digest j.val) := by decide

/-- The values that a form of reading returns, the first read first. -/
def ReadForm.values (form : ReadForm) (h : Digest) : List Word :=
  match form with
  | .words => (List.finRange 8).map fun j => h[j]
  | .bytes => (serialize h).toList.map fun y => y.setWidth 32

/-- Either way of reading returns its values, and nothing but DOUTPTR and what the host has read changes. -/
theorem runHost_read_ended (form : ReadForm) {turns left : List Nat} {s t : State} (hinv : s.Invariant)
    (hidle : s.busy = false) (hptr : s.doutptr = 0)
    (h : runHost turns ((pseudoRead form).map .access) s = .ended left t) :
    t = { s with rdata := (form.values s.hs).reverse ++ s.rdata } := by
  rw [← List.append_nil ((pseudoRead form).map HostStmt.access)] at h
  cases form with
  | words =>
    rw [pseudoRead, pseudoReaddigest_eq] at h
    obtain ⟨mid, hrun⟩ := readWord_idleEffect.runHost_ended (List.finRange 8) hinv hidle h
    rw [runHost_nil, foldl_readWord] at hrun
    exact (HostRun.ended.inj hrun).2.symm
  | bytes =>
    rw [pseudoRead, pseudoReadbytes_eq] at h
    obtain ⟨mid, hrun⟩ := readByte_idleEffect.runHost_ended (List.finRange 32) hinv hidle h
    rw [runHost_nil, foldl_readbytes hptr] at hrun
    exact (HostRun.ended.inj hrun).2.symm

/-- The 32 digest bytes in order are the four bytes of each of the eight words (44_accumulator_serializer.md R129). -/
theorem serialize_toList (h : Digest) :
    (serialize h).toList = (List.finRange 8).flatMap fun j => (List.finRange 4).map (wordByte h[j]) := by
  have hindex : List.finRange 32 =
      (List.finRange 8).flatMap fun j => (List.finRange 4).map fun k => ⟨4 * j.val + k.val, by omega⟩ := by decide
  have hlist : (serialize h).toList = (List.finRange 32).map fun k => (serialize h)[k] := by
    refine List.ext_getElem (by simp) fun k _ _ => ?_
    simp
  have hword (j : Fin 8) :
      ((List.finRange 4).map fun k : Fin 4 => (⟨4 * j.val + k.val, by omega⟩ : Fin 32)).map (fun k => (serialize h)[k]) =
        (List.finRange 4).map (wordByte h[j]) := by
    rw [List.map_map]
    exact List.map_congr_left fun k _ => serialize_getElem_word h j k
  rw [hlist, hindex, List.map_flatMap]
  exact List.flatMap_congr fun j _ => hword j

theorem ReadForm.values_length (form : ReadForm) (h : Digest) : (form.values h).length = form.count := by
  cases form <;> simp [ReadForm.values, ReadForm.count]

theorem ReadForm.flatMap_bytesOf (form : ReadForm) (h : Digest) :
    (form.values h).flatMap form.bytesOf = (serialize h).toList := by
  cases form with
  | words =>
    rw [serialize_toList, ReadForm.values, List.flatMap_map]
    rfl
  | bytes =>
    have hbyte (v : Byte) : ReadForm.bytes.bytesOf (v.setWidth 32) = [v] :=
      congrArg (fun y => [y]) (extractLsb'_low_setWidth v)
    rw [ReadForm.values, List.flatMap_map]
    simp only [hbyte, List.flatMap_singleton']

/-- The bytes read last are those of the digest. -/
theorem digestRead_values (form : ReadForm) (h : Digest) (earlier : List Word) :
    digestRead form ((form.values h).reverse ++ earlier) = (serialize h).toList := by
  have hlen : (form.values h).reverse.length = form.count := by rw [List.length_reverse, form.values_length]
  rw [digestRead, List.take_left' hlen, List.reverse_reverse, form.flatMap_bytesOf]

theorem decode_pseudoInit : decode (stmtAccess pseudoInit) = .wrCtrl 0x00000001#32 := by decide

/-- Settles O57: INIT seeds the chain, each block is a link of it, and either way of reading returns the bytes of the
last digest state. -/
theorem digestOfMessage : Obligations.DigestOfMessage := by
  refine fun s M P blocks read turns hinv hidle hpad hblocks => ⟨fun left t h => ?ended, fun hone hlen =>
    runHost_ends (State.safe_of_idle hinv hidle) hone hlen⟩
  case ended =>
    have hexec : exec (decode (stmtAccess pseudoInit)) s = .next s.init := by
      rw [decode_pseudoInit]
      exact exec_wrCtrl_init hidle
    rw [digestProgram, List.append_assoc] at h
    obtain ⟨mid, hinit⟩ := runHost_access_of_idle hinv hidle hexec h
    obtain ⟨mid', u, hu, hread⟩ := runHost_blocks_ended blocks (exec_invariant hinv hexec) hidle rfl rfl hinit
    obtain rfl := runHost_read_ended read hu.invariant hu.idle hu.doutptr hread
    have hms : (blocks.map fun b => blockWords b.2) = messageBlocks P := by
      rw [messageBlocks, ← hblocks, List.map_map]
      rfl
    have hhs : u.hs = chain ivRom (messageBlocks P) := by rw [hu.digest, hms, State.init_hs]
    refine ⟨serialize (chain ivRom (messageBlocks P)), ?_, ?_, rfl, hu.err, hu.errcode, hu.inbox⟩
    · rw [← hhs]
      exact digestRead_values read u.hs u.rdata
    · rw [messageDigest, hpad]

end Sys2Proof.Machine

namespace Sys2Proof.Machine

/-! ## The lengths of a padded message (41_padding_host.md R91, R92) -/

/-- `z = (55 - n) mod 64` completes n + 9 bytes to whole blocks, and it is below 64. -/
theorem padZeros_spec (n : Nat) : padZeros n ≤ 63 ∧ (n + 1 + padZeros n + 8) % 64 = 0 := by
  unfold padZeros
  omega

/-- Settles O59: two numbers of zero bytes that both complete the last block differ by a multiple of 64. -/
theorem padZerosIsLeast : Obligations.PadZerosIsLeast := by
  intro n
  obtain ⟨hle, hfill⟩ := padZeros_spec n
  exact ⟨hle, hfill, fun z hz => by omega⟩

@[simp] theorem be64_length (v : BitVec 64) : (be64 v).length = 8 := by simp [be64]

/-- The bytes of a padded message (41_padding_host.md R90). -/
def padBytes (M : List Byte) : List Byte :=
  M ++ [0x80#8] ++ List.replicate (padZeros M.length) 0x00#8 ++ be64 (BitVec.ofNat 64 (8 * M.length))

theorem pad_of_lt {M : List Byte} (h : M.length < 2 ^ 61) : pad M = .ok (padBytes M) :=
  if_pos (by omega)

theorem pad_of_ge {M : List Byte} (h : 2 ^ 61 ≤ M.length) : pad M = .error .lengthNotRepresentable :=
  if_neg (by omega)

theorem eq_padBytes_of_pad {M P : List Byte} (h : pad M = .ok P) : P = padBytes M := by
  by_cases hlt : M.length < 2 ^ 61
  · exact (Except.ok.inj ((pad_of_lt hlt).symm.trans h)).symm
  · cases (pad_of_ge (Nat.le_of_not_lt hlt)).symm.trans h

theorem padBytes_length (M : List Byte) : (padBytes M).length = M.length + 1 + padZeros M.length + 8 := by
  simp [padBytes]
  omega

/-! ## The blocks of a byte sequence (41_padding_host.md R95 step 1, 42_scheduler.md R98) -/

theorem splitBlocks_length (P : List Byte) : (splitBlocks P).length = P.length / 64 := by
  simp [splitBlocks]

theorem messageBlocks_length (P : List Byte) : (messageBlocks P).length = P.length / 64 := by
  simp [messageBlocks, splitBlocks_length]

/-- Block b is the bytes 64b to 64b+63. -/
theorem splitBlocks_getElem (P : List Byte) {b : Nat} (hb : b < P.length / 64) :
    ∃ B : Vector Byte 64, (splitBlocks P)[b]? = some B ∧ ∀ k : Fin 64, P[64 * b + k.val]? = some B[k] := by
  refine ⟨Vector.ofFn fun k : Fin 64 => P.getD (64 * b + k.val) 0, ?_, fun k => ?_⟩
  · rw [splitBlocks, List.getElem?_map, List.getElem?_range hb]
    rfl
  · have hlt : 64 * b + k.val < P.length := by omega
    simp [hlt]

/-- The words of block b are its bytes, four to a word. -/
theorem messageBlocks_getElem (P : List Byte) {b : Nat} (hb : b < P.length / 64) :
    ∃ m : Block, (messageBlocks P)[b]? = some m ∧
      ∀ (i : Fin 16) (k : Fin 4), P[64 * b + 4 * i.val + k.val]? = some (wordByte m[i] k) := by
  obtain ⟨B, hB, hbytes⟩ := splitBlocks_getElem P hb
  refine ⟨blockWords B, ?_, fun i k => ?_⟩
  · rw [messageBlocks, List.getElem?_map, hB]
    rfl
  · rw [wordByte_blockWords, Nat.add_assoc]
    exact hbytes ⟨4 * i.val + k.val, by omega⟩

/-- Settles O58: the zero bytes complete the last block, and `splitBlocks` cuts at the multiples of 64. -/
theorem paddedMessageIsWholeBlocks : Obligations.PaddedMessageIsWholeBlocks := by
  refine ⟨fun M P h => ?lengths, fun P => ⟨splitBlocks_length P, messageBlocks_length P,
    fun b hb => splitBlocks_getElem P hb, fun b hb => messageBlocks_getElem P hb⟩⟩
  case lengths =>
    have hlen := padBytes_length M
    obtain ⟨hle, hfill⟩ := padZeros_spec M.length
    rw [← eq_padBytes_of_pad h] at hlen
    omega

/-! ## The bytes of a padded message (41_padding_host.md R90, R94) -/

/-- Eight bytes, most significant first, read as a number, are the 64-bit value. -/
theorem be64_foldl (v : BitVec 64) : (be64 v).foldl (fun acc b => acc * 256 + b.toNat) 0 = v.toNat := by
  have byte (start : Nat) : (v.extractLsb' start 8).toNat = v.toNat / 2 ^ start % 2 ^ 8 := by
    rw [BitVec.extractLsb'_toNat, Nat.shiftRight_eq_div_pow]
  have hbytes : be64 v = [v.extractLsb' 56 8, v.extractLsb' 48 8, v.extractLsb' 40 8, v.extractLsb' 32 8,
      v.extractLsb' 24 8, v.extractLsb' 16 8, v.extractLsb' 8 8, v.extractLsb' 0 8] := rfl
  have hv := v.isLt
  simp only [hbytes, List.foldl_cons, List.foldl_nil, byte]
  omega

/-- Settles O60: the length check is `8n < 2^64`, and each part of the padded message starts where the one before it
ends. -/
theorem padWritesEveryByte : Obligations.PadWritesEveryByte := by
  refine fun M => ⟨pad_of_ge, fun hlt => ⟨padBytes M, pad_of_lt hlt, padBytes_length M, ?message, ?marker,
    fun i hlo hhi => ?zeros, ?bitLength⟩⟩
  case message => simp [padBytes]
  case marker => simp [padBytes]
  case zeros =>
    have hlen : (M ++ [0x80#8]).length = M.length + 1 := by simp
    rw [padBytes, List.getElem?_append_left (by simp; omega), List.getElem?_append_right (by omega),
      List.getElem?_replicate, if_pos (by omega)]
  case bitLength =>
    have hdrop : (padBytes M).drop (M.length + 1 + padZeros M.length) = be64 (BitVec.ofNat 64 (8 * M.length)) :=
      List.drop_left' (by simp; omega)
    rw [hdrop, be64_foldl, BitVec.toNat_ofNat, Nat.mod_eq_of_lt (by omega)]

end Sys2Proof.Machine

namespace Sys2Proof.Machine

/-! ## The first 64 primes -/

/-- Trial division by 2..17, which decides primality below 18^2. -/
def isPrimeByTrial (n : Nat) : Bool := decide (2 ≤ n ∧ ∀ d : Nat, d < 18 → 2 ≤ d → d * d ≤ n → ¬ d ∣ n)

theorem isPrimeByTrial_iff {n : Nat} (hn : n < 18 ^ 2) : isPrimeByTrial n = true ↔ n.Prime := by
  rw [isPrimeByTrial, decide_eq_true_iff, Nat.prime_def_le_sqrt]
  refine and_congr_right fun _ => ⟨fun h d hd hsqrt => ?_, fun h d _ hd hsq => h d hd (Nat.le_sqrt.mpr hsq)⟩
  have hsq : d * d ≤ n := Nat.le_sqrt.mp hsqrt
  exact h d (by nlinarith) hd hsq

/-- The prime after the k-th one is the (k+1)-th. -/
theorem nth_prime_succ {k p q : Nat} (hp : Nat.nth Nat.Prime k = p) (hlt : p < q) (hq : q.Prime)
    (hgap : ∀ m, p < m → m < q → ¬ m.Prime) : Nat.nth Nat.Prime (k + 1) = q := by
  have hinf := Nat.infinite_setOfPred_prime
  apply le_antisymm
  · have hk : k < Nat.count Nat.Prime q := by
      rwa [← Nat.nth_lt_nth hinf, hp, Nat.nth_count hq]
    rw [← Nat.nth_count hq]
    exact (Nat.nth_le_nth hinf).mpr hk
  · have hnext : p < Nat.nth Nat.Prime (k + 1) := by
      rw [← hp]
      exact (Nat.nth_lt_nth hinf).mpr (Nat.lt_succ_self k)
    exact Nat.le_of_not_lt fun h => hgap _ hnext h (Nat.prime_nth_prime (k + 1))

/-- The first 64 primes. -/
def firstPrimes : Vector Nat 64 := ⟨#[2, 3, 5, 7, 11, 13, 17, 19, 23, 29, 31, 37, 41, 43, 47, 53,
    59, 61, 67, 71, 73, 79, 83, 89, 97, 101, 103, 107, 109, 113, 127, 131,
    137, 139, 149, 151, 157, 163, 167, 173, 179, 181, 191, 193, 197, 199, 211, 223,
    227, 229, 233, 239, 241, 251, 257, 263, 269, 271, 277, 281, 283, 293, 307, 311], rfl⟩

/-- Each entry of the table is below 18^2, and the one after it is the next number that trial division passes. -/
theorem firstPrimes_next : ∀ (k : Nat) (hk : k < 63),
    firstPrimes[k + 1] < 18 ^ 2 ∧ firstPrimes[k] < firstPrimes[k + 1] ∧ isPrimeByTrial firstPrimes[k + 1] = true ∧
      ∀ d < firstPrimes[k + 1] - firstPrimes[k] - 1, isPrimeByTrial (firstPrimes[k] + 1 + d) = false := by
  decide

theorem nth_prime_eq_firstPrimes (k : Nat) (hk : k < 64) : Nat.nth Nat.Prime k = firstPrimes[k] := by
  induction k with
  | zero => exact Nat.nth_prime_zero_eq_two
  | succ k ih =>
    obtain ⟨hsmall, hlt, hprime, hgap⟩ := firstPrimes_next k (by omega)
    refine nth_prime_succ (ih (by omega)) hlt ((isPrimeByTrial_iff hsmall).mp hprime) fun m hlo hhi hm => ?_
    obtain ⟨d, rfl⟩ := Nat.exists_eq_add_of_le (Nat.succ_le_of_lt hlo)
    have hno := hgap d (by omega)
    exact absurd (hno.symm.trans ((isPrimeByTrial_iff (hhi.trans hsmall)).mpr hm)) (by decide)

/-! ## The ROM words (40_primitives.md R87) -/

/-- With an integer part above it a word of K is the cube root to 32 places: its cube and that of the next number
enclose the prime. -/
theorem kRom_encloses : ∀ k : Fin 64, ∃ c < 7,
    (c * 2 ^ 32 + kRom[k].toNat) ^ 3 ≤ firstPrimes[k] * 2 ^ 96 ∧
      firstPrimes[k] * 2 ^ 96 < (c * 2 ^ 32 + kRom[k].toNat + 1) ^ 3 := by
  decide

/-- With an integer part above it a word of IV is the square root to 32 places. -/
theorem ivRom_encloses : ∀ j : Fin 8, ∃ c < 5,
    (c * 2 ^ 32 + ivRom[j].toNat) ^ 2 ≤ firstPrimes[j.val] * 2 ^ 64 ∧
      firstPrimes[j.val] * 2 ^ 64 < (c * 2 ^ 32 + ivRom[j].toNat + 1) ^ 2 := by
  decide

/-- The integer part drops out modulo 2^32. -/
theorem toNat_eq_mod (c : Nat) (x : Word) : x.toNat = (c * 2 ^ 32 + x.toNat) % 2 ^ 32 := by
  rw [Nat.mul_add_mod_self_right, Nat.mod_eq_of_lt x.isLt]

/-- Settles O50: the k-th prime is read off a table that trial division checks, and the integer root is the ROM word
under its integer part. -/
theorem romWordsAreRootsOfPrimes : Obligations.RomWordsAreRootsOfPrimes := by
  refine ⟨fun k => ?cube, fun j => ?square⟩
  case cube =>
    obtain ⟨c, -, hlo, hhi⟩ := kRom_encloses k
    rw [nth_prime_eq_firstPrimes k.val k.isLt]
    exact ⟨c * 2 ^ 32 + kRom[k].toNat, hlo, hhi, toNat_eq_mod c kRom[k]⟩
  case square =>
    obtain ⟨c, -, hlo, hhi⟩ := ivRom_encloses j
    rw [nth_prime_eq_firstPrimes j.val (by omega)]
    exact ⟨c * 2 ^ 32 + ivRom[j].toNat, hlo, hhi, toNat_eq_mod c ivRom[j]⟩

end Sys2Proof.Machine
